-- ==== Sys2Proof/Word.lean ====
section
/-! DEFINITION. The words of the Uhzen 4816: the bit strings the manual itself numbers. -/

namespace Sys2Proof

/-- A 24-bit sample of the link or of the sample store, two's complement (R64, R141). -/
abbrev Sample := BitVec 24

/-- A 24-bit payload: one body word of an order or a report (R145, R161, R183). -/
abbrev Payload := BitVec 24

/-- A 32-bit control word as it travels in the control slot (Table 7-4). -/
abbrev ControlWord := BitVec 32

/-- The 448 bits of one frame, the bit of period 0 most significant (Table 7-3). -/
abbrev LineFrame := BitVec 448

/-- A frame count: 32 bits, wrapping (R129). -/
abbrev FrameCount := BitVec 32

/-- The sixteen samples of one frame, slot 0 first. -/
abbrev SampleSet := Vector Sample 16

end Sys2Proof
end

