-- ==== Sys2Proof/Syntax.lean ====
section
/-! DEFINITION. The commands of the station: one constructor for each row of spec/opcode_table.json. -/

namespace Sys2Proof

/-- The commands. A line event carries the straps, the bits or the frame it brings; an event of the station's own work carries
the lane or the unit it happens to; an order carries its sequence and its body words in the order they travel. -/
inductive Instr where
  /-- POWER_ON: power is applied, with the straps as they stand (R132, R140). -/
  | powerOn (straps : BitVec 5)
  /-- RESET_ASSERT: the RESET line is asserted (R132). -/
  | resetAssert
  /-- RESET_RELEASE: the RESET line is released, with the straps as they stand (R140). -/
  | resetRelease (straps : BitVec 5)
  /-- SEARCH_CANDIDATE: the bits that arrive on the line up to the last bit of a candidate frame, those before it and its
  own (R126). A candidate that starts among bits already received has fewer than 448 new ones. -/
  | searchCandidate (skipped candidate : List Bool)
  /-- CONFIRM_FRAME: a frame taken at fixed spacing in CONFIRM (R127). -/
  | confirmFrame (frame : LineFrame)
  /-- FRAME_ARRIVAL: a frame received while LOCKED (R130). -/
  | frameArrival (frame : LineFrame)
  /-- TIMEOUT: the deadline of the order in assembly (R148). -/
  | timeout
  /-- APPLY_RELEASE: a lane applies its waiting RELEASE (R41). -/
  | applyRelease (lane : Fin 8)
  /-- APPLY_ABORT: a lane applies its waiting ABORT (R42). -/
  | applyAbort (lane : Fin 8)
  /-- RECORD_END: a lane's counter reaches T (R29). -/
  | recordEnd (lane : Fin 8)
  /-- TRIGGER_FALLS_DUE: the entries due leave the Trigger Queue and are delivered (R114). -/
  | triggerFallsDue
  /-- CAPTURE_COMPLETE: a unit's samples written reaches the wanted length (R95). -/
  | captureComplete (unit : Fin 2)
  /-- CUE_OUT_SENT: an arrival at which the oldest Cue Out entry is given the free outgoing slot (R120). -/
  | cueOutSent
  /-- REPORT_WORD_SENT: an arrival at which the next word of the head report is given the free outgoing slot (R191). -/
  | reportWordSent
  /-- READ_STATION, order code 1 (R164). -/
  | readStation (seq : BitVec 8) (body : List Payload)
  /-- CLEAR_STATION_LANES, order code 2 with scope 0 (R167). -/
  | clearStationLanes (seq : BitVec 8) (body : List Payload)
  /-- CLEAR_STATION_TABLES, order code 2 with scope 1 (R168). -/
  | clearStationTables (seq : BitVec 8) (body : List Payload)
  /-- CLEAR_STATION_STORE, order code 2 with scope 2 (R169). -/
  | clearStationStore (seq : BitVec 8) (body : List Payload)
  /-- CLEAR_STATION_ALL, order code 2 with scope 3 (R170). -/
  | clearStationAll (seq : BitVec 8) (body : List Payload)
  /-- LOAD_RECORD, order code 3 (R13, R14). -/
  | loadRecord (seq : BitVec 8) (body : List Payload)
  /-- ERASE_RECORD, order code 4 (R15). -/
  | eraseRecord (seq : BitVec 8) (body : List Payload)
  /-- READ_RECORD, order code 5 (R16). -/
  | readRecord (seq : BitVec 8) (body : List Payload)
  /-- MAP_CUE, order code 6 (R107). -/
  | mapCue (seq : BitVec 8) (body : List Payload)
  /-- UNMAP_CUE, order code 7 (R108). -/
  | unmapCue (seq : BitVec 8) (body : List Payload)
  /-- READ_CUE_MAP, order code 8 (R109). -/
  | readCueMap (seq : BitVec 8) (body : List Payload)
  /-- TAKE, order code 9 (R117). -/
  | take (seq : BitVec 8) (body : List Payload)
  /-- RELEASE, order code 10 (R175). -/
  | release (seq : BitVec 8) (body : List Payload)
  /-- ABORT, order code 11 (R176). -/
  | abort (seq : BitVec 8) (body : List Payload)
  /-- READ_LANE, order code 12 (R178). -/
  | readLane (seq : BitVec 8) (body : List Payload)
  /-- OPEN_CLIP, order code 13 (R79). -/
  | openClip (seq : BitVec 8) (body : List Payload)
  /-- APPEND_CLIP, order code 14 (R80). -/
  | appendClip (seq : BitVec 8) (body : List Payload)
  /-- CLOSE_CLIP, order code 15 (R81). -/
  | closeClip (seq : BitVec 8) (body : List Payload)
  /-- DELETE_CLIP, order code 16 (R82). -/
  | deleteClip (seq : BitVec 8) (body : List Payload)
  /-- READ_CLIP, order code 17 (R83). -/
  | readClip (seq : BitVec 8) (body : List Payload)
  /-- CAPTURE_NOW, order code 18 with trigger cue 0 (R90). -/
  | captureNow (seq : BitVec 8) (body : List Payload)
  /-- CAPTURE_ARMED, order code 18 with a trigger cue (R91). -/
  | captureArmed (seq : BitVec 8) (body : List Payload)
  /-- CANCEL_CAPTURE, order code 19 (R97). -/
  | cancelCapture (seq : BitVec 8) (body : List Payload)
  /-- LOAD_LAW, order code 20 (R51). -/
  | loadLaw (seq : BitVec 8) (body : List Payload)
  /-- READ_LAW, order code 21 (R52). -/
  | readLaw (seq : BitVec 8) (body : List Payload)
  /-- READ_TRIGGERS, order code 22 (R124). -/
  | readTriggers (seq : BitVec 8) (body : List Payload)
  /-- UNKNOWN_ORDER: an order of code 0 or 23 to 255 (R154). -/
  | unknownOrder (code : BitVec 8) (seq : BitVec 8) (body : List Payload)
  deriving DecidableEq, Repr

end Sys2Proof
end

