-- ==== Sys2Proof/Decode.lean ====
section
/-! DEFINITION. Decoding of a command from table bits. No row of spec/opcode_table.json gives bits: the station's
commands are line events, events of its own work and whole orders, none of which one word spells. -/

namespace Sys2Proof

/-- The command that a word of the table spells: none, since no row has bits. -/
def decodeTableWord (_nbits _w : Nat) : Option Instr := none

end Sys2Proof
end

