-- ==== Sys2Proof/Config.lean ====
section
/-! DEFINITION. What the manual leaves open: constants without a body, so that no proof can see a value of them.
Each is applied to plain data (the number of the frame arrival, kept in `State.choices`; a sample address). -/

namespace Sys2Proof

/-- R28, R67: at which point of a frame arrival a capture unit does its work. Values 0 to 7: just before the work
of that lane; 8: after lane 7 and before the chains of freed DOOMED clips are returned; 9: after that return. The
manual says that which comes first is not fixed, so the value is free for every arrival and unit. -/
opaque Config.captureTurn (arrival : Nat) (unit : Fin 2) : Fin 10

/-- R112: how many of the cue admissions of a frame arrival are tested before a capture unit that starts at the
same arrival leaves ARMED. The manual says that which is taken first is not fixed. -/
opaque Config.admissionsBeforeStart (arrival : Nat) (unit : Fin 2) : Nat

/-- R187: how many of the reports offered at a frame arrival are judged before the report whose END word leaves at
that arrival has left the queue. The manual says that the order is not fixed. -/
opaque Config.offersBeforeDeparture (arrival : Nat) : Nat

/-- R64: what the sample memory holds at a place that nothing has written since power-on: no defined value. -/
opaque Config.powerOnSample (address : Nat) : Sample

/-- Log entry 19: the programme samples of the arrival that CUE_OUT_SENT or REPORT_WORD_SENT is. The rows of the table
name no frame, so the samples are free for every arrival and slot. -/
opaque Config.departureSample (arrival : Nat) (slot : Fin 16) : Sample

end Sys2Proof
end

