-- ==== Sys2Proof/Machine/State.lean ====
section
/-! DEFINITION. The state of the station as plain data, block by block of Table 1 of the manual, and its value after
reset. -/

namespace Sys2Proof.Machine

/-- No command of this block stops the machine: the manual gives every command of the table an effect, or states that
it changes nothing, in every state. The type therefore has no constructor. -/
inductive Fault where
  deriving DecidableEq, Repr

/-- Why a command has no meaning. -/
inductive Refusal where
  /-- Raised by an arm of `exec` whose command is not modelled yet; no arm raises it now. Safe: the machine stops. -/
  | notModelled (mnemonic : String)
  deriving DecidableEq, Repr

/-! Splice records (Table 1-1) -/

/-- One voice of a record: an output slot and the clip it plays (R5). -/
structure Voice where
  slot : Fin 16
  clip : Fin 512
  deriving DecidableEq, Repr

/-- An end cue: cue number 1 to 4095, offset in frames, forward flag (R9). -/
structure EndCue where
  cue : Fin 4096
  offset : Fin 4096
  forward : Bool
  deriving DecidableEq, Repr

/-- The fields of a LOADED record, in the order of Table 1-1. `repeats` is the manual's repeat. -/
structure Record where
  length : Nat
  start : Nat
  repeats : Fin 256
  rIn : Fin 1024
  rOut : Fin 1024
  under : Fin 64
  next : Option (Fin 256)
  reportStart : Bool
  reportEnd : Bool
  tag : Fin 256
  endCue : Option EndCue
  voices : List Voice
  deriving DecidableEq, Repr

/-! Lanes (Table 2-1) -/

/-- The phase of a lane (R19, R55). -/
inductive Phase where
  | idle | fadeIn | onAir | fadeOut | pause
  deriving DecidableEq, Repr

/-- The end mark of a lane; `unmarked` is the manual's "none". -/
inductive EndMark where
  | unmarked | released | cut
  deriving DecidableEq, Repr

/-- The kind of a pending trigger (R32). -/
inductive PendingKind where
  | queued | cut
  deriving DecidableEq, Repr

/-- A pending trigger: the record index it names and its kind (R32). -/
structure PendingTrigger where
  record : Fin 256
  kind : PendingKind
  deriving DecidableEq, Repr

/-- An order taken for a lane and not yet applied (R20). -/
inductive WaitingOrder where
  | release | abort
  deriving DecidableEq, Repr

/-- A lane context. `k` is the splice frame counter, `effLen` the effective length E, `total` the splice total T;
`slots` lists the owned slots in ascending number. -/
structure Lane where
  phase : Phase
  copy : Option Record
  source : Option (Fin 256)
  k : Nat
  effLen : Nat
  total : Nat
  mark : EndMark
  pending : Option PendingTrigger
  slots : List (Fin 16)
  waiting : Option WaitingOrder
  deriving DecidableEq, Repr

/-- The values of an IDLE lane (R18). -/
def Lane.idle : Lane where
  phase := .idle
  copy := none
  source := none
  k := 0
  effLen := 0
  total := 0
  mark := .unmarked
  pending := none
  slots := []
  waiting := none

/-! The Clip Store (Table 4-1) -/

/-- The state of a clip (Table 4-2). -/
inductive ClipState where
  | free | reserved | filling | ready | doomed
  deriving DecidableEq, Repr

/-- Who writes, or will write, a clip (R70). -/
inductive Filler where
  | unit (u : Fin 2)
  | management
  deriving DecidableEq, Repr

/-- A Clip Directory entry. `chain` lists block numbers, the block of position 0 first. -/
structure Clip where
  state : ClipState
  length : Nat
  chain : List Nat
  uses : Nat
  filler : Option Filler
  short : Bool
  deriving DecidableEq, Repr

/-- The values of a FREE clip (R68). -/
def Clip.freed : Clip where
  state := .free
  length := 0
  chain := []
  uses := 0
  filler := none
  short := false

/-! Capture units (Table 5-1) -/

/-- The state of a capture unit. -/
inductive UnitState where
  | idle | armed | recording
  deriving DecidableEq, Repr

/-- A capture unit. -/
structure CaptureUnit where
  state : UnitState
  clip : Option (Fin 512)
  slot : Option (Fin 16)
  wanted : Nat
  cue : Option (Fin 4096)
  written : Nat
  deriving DecidableEq, Repr

/-- The values of an IDLE capture unit (R86). -/
def CaptureUnit.idle : CaptureUnit where
  state := .idle
  clip := none
  slot := none
  wanted := 0
  cue := none
  written := 0

/-! The Trigger Unit -/

/-- What a trigger does to a busy lane (R106). -/
inductive Policy where
  | queue | cut | skip
  deriving DecidableEq, Repr

/-- A Cue Map entry (R106). -/
structure CueMapEntry where
  cue : Fin 4096
  lane : Fin 8
  record : Fin 256
  policy : Policy
  deriving DecidableEq, Repr

/-- What a Trigger Queue entry holds besides its due frame (R110). -/
inductive TriggerKind where
  | cue (number : Fin 4096)
  | take (lane : Fin 8) (record : Fin 256) (policy : Policy)
  deriving DecidableEq, Repr

/-- A Trigger Queue entry. `admitted` is the frame count of the arrival that admitted it, which R105 needs to say
that an entry falls due only at a later arrival. -/
structure TriggerEntry where
  due : FrameCount
  admitted : FrameCount
  kind : TriggerKind
  deriving DecidableEq, Repr

/-- A Cue Out list entry (R119). -/
structure CueOutEntry where
  cue : Fin 4096
  due : FrameCount
  deriving DecidableEq, Repr

/-! The Order Unit -/

/-- The status of an acknowledgement (Table 8-3). -/
inductive Status where
  | done | repeated | deferred | unknownOrder | badLength | badField | notFound | wrongState | unitBusy | mapFull
  | queueFull | storeFull | emptyClip
  deriving DecidableEq, Repr

/-- The order in assembly (Table 8-1). -/
structure Assembly where
  address : BitVec 5
  code : BitVec 8
  seq : BitVec 8
  declared : Nat
  body : List Payload
  sum : BitVec 16
  start : FrameCount
  deriving DecidableEq, Repr

/-- The last-taken memory when present (R155). -/
structure LastTaken where
  seq : BitVec 8
  code : BitVec 8
  status : Status
  deriving DecidableEq, Repr

/-! The Report Queue and the Line Receiver -/

/-- A report: its code 0 to 14, its sequence and its body words (R183). -/
structure Report where
  code : Nat
  seq : BitVec 8
  body : List Payload
  deriving DecidableEq, Repr

/-- The lock states (Table 7-1). -/
inductive LockState where
  | search | confirm | locked
  deriving DecidableEq, Repr

/-- The whole state of the station, block by block of Table 1, and after it the model's own fields.
Splice Table, Clip Directory and sample memory are lists of (number, value) pairs in strictly rising number: a record
not listed is EMPTY, a clip not listed is FREE, a sample place not listed has not been written since power-on. -/
structure State where
  /-- Line Receiver: lock state (R126 to R130). -/
  lock : LockState
  /-- Line Receiver: confirmation count (R127). -/
  confirm : Nat
  /-- Line Receiver: bad-run count (R130). -/
  badRun : Nat
  /-- Line Receiver: frame count (R129). -/
  frameCount : FrameCount
  /-- Line Receiver: last good sample set (R134). -/
  lastGood : SampleSet
  /-- Line Receiver: the bit position, counted from the start of the search, at which it takes its next frame
  (CONFIRM, LOCKED) or resumes its search (SEARCH) (R126, R127, R130). -/
  nextBit : Nat
  /-- Line Receiver: how many bits have arrived from `nextBit` on, 0 to 447 in SEARCH and 0 outside it; those bits are the
  last ones of `lineOut`, which in SEARCH holds the input as received (R126, R133). -/
  waitingBits : Nat
  /-- The RESET line is asserted (R132). -/
  resetLine : Bool
  /-- Control Slot Router: the station number read from the straps (R140). -/
  station : BitVec 5
  /-- Order Unit: the order in assembly (R143). -/
  assembly : Option Assembly
  /-- Order Unit: the last-taken memory (R155). -/
  lastTaken : Option LastTaken
  /-- Trigger Unit: the Cue Map, in order of entry (R106). -/
  cueMap : List CueMapEntry
  /-- Trigger Unit: the Trigger Queue, its head first (R110). -/
  triggers : List TriggerEntry
  /-- Trigger Unit: the Cue Out list, its oldest entry first (R119). -/
  cueOut : List CueOutEntry
  /-- Splice Engine: the Splice Table (R1). -/
  table : List (Nat × Record)
  /-- Splice Engine: the eight lane contexts (R18). -/
  lanes : Vector Lane 8
  /-- Splice Engine: the Slot Table (R21). -/
  slots : Vector (Option (Fin 8)) 16
  /-- Mixer: the Fade Law Table (R49). -/
  law : Vector Nat 64
  /-- Clip Store: the sample memory, keyed by 256 × block + offset (R64). -/
  memory : List (Nat × Sample)
  /-- Clip Store: the Free Block List, its head first (R65). -/
  freeBlocks : List Nat
  /-- Clip Store: the Clip Directory (R68). -/
  clips : List (Nat × Clip)
  /-- The two capture units (R86). -/
  units : Vector CaptureUnit 2
  /-- Report Queue: the reports, the report in emission first (R182). -/
  reports : List Report
  /-- Report Queue: the word position (R191). -/
  wordPos : Nat
  /-- Report Queue: the lost-events count (R185). -/
  lost : Nat
  /-- Report Queue: the event sequence (R184). -/
  eventSeq : BitVec 8
  /-- Line Transmitter: the 448 bits that leave next, the delay of R133; after a frame arrival, the frame being sent
  (R136). -/
  lineOut : LineFrame
  /-- The model's own: the number of frame arrivals whose frame work has been done, to which the free values are applied
  (R28, R67, R112, R187). -/
  choices : Nat
  /-- The model's own: the commands that are waiting, the next one first. -/
  pending : List Instr
  deriving DecidableEq, Repr

/-- The default Fade Law Table: 65,536 × k / 63 rounded to the nearest whole number (R50). -/
def State.defaultLaw : Vector Nat 64 :=
  Vector.ofFn fun i => (2 * 65536 * i.val + 63) / (2 * 63)

/-- Every block at its power-on value (R1, R18, R21, R49, R65, R68, R86, R106, R110, R119, R132, R143, R155, R182), with the
RESET line not asserted, the station number as given, and the frame being sent all zero (DESIGN CHOICE, log entry 2). -/
def State.powerOn (station : BitVec 5) : State where
  lock := .search
  confirm := 0
  badRun := 0
  frameCount := 0
  lastGood := Vector.replicate 16 0
  nextBit := 0
  waitingBits := 0
  resetLine := false
  station := station
  assembly := none
  lastTaken := none
  cueMap := []
  triggers := []
  cueOut := []
  table := []
  lanes := Vector.replicate 8 Lane.idle
  slots := Vector.replicate 16 none
  law := State.defaultLaw
  memory := []
  freeBlocks := List.range 4096
  clips := []
  units := Vector.replicate 2 CaptureUnit.idle
  reports := []
  wordPos := 0
  lost := 0
  eventSeq := 0
  lineOut := 0
  choices := 0
  pending := []

/-- The station right after the RESET line is released, the straps reading 1 (DESIGN CHOICE, log entry 1). -/
def State.reset : State := State.powerOn 1

end Sys2Proof.Machine
end

