-- ==== Sys2Proof/Machine/Operands.lean ====
section
/-! DEFINITION. The layouts of the manual (section 7.6) and the reading of order fields and of coded values. -/

namespace Sys2Proof.Machine

/-! Frames (Table 7-3) -/

/-- The fixed marker value 5A3Ch (Table 7-3). -/
def markerValue : BitVec 16 := 0x5A3C

/-- The four parts of a frame. -/
structure Frame where
  marker : BitVec 16
  samples : SampleSet
  control : ControlWord
  check : BitVec 16
  deriving DecidableEq, Repr

/-- The parts of 448 received bits: bit period p is bit 447 − p, every field most significant bit first (Table 7-3). -/
def frameOfLine (w : LineFrame) : Frame where
  marker := w.extractLsb' 432 16
  samples := Vector.ofFn fun i => w.extractLsb' (408 - 24 * i.val) 24
  control := w.extractLsb' 16 32
  check := w.extractLsb' 0 16

/-- The 384 bits of sixteen sample slots, slot 0 first. -/
def samplesToBits (v : SampleSet) : BitVec 384 :=
  v[0] ++ v[1] ++ v[2] ++ v[3] ++ v[4] ++ v[5] ++ v[6] ++ v[7] ++ v[8] ++ v[9] ++ v[10] ++ v[11] ++ v[12] ++ v[13]
    ++ v[14] ++ v[15]

/-- The 448 bits of a frame as they are sent (Table 7-3). -/
def frameToLine (f : Frame) : LineFrame :=
  f.marker ++ samplesToBits f.samples ++ f.control ++ f.check

/-- The last 448 bits of the line after one more bit: a bit that arrives goes in behind, and the oldest one leaves (R133,
Table 7-3). -/
def shiftIn (line : LineFrame) (bit : Bool) : LineFrame := (line.concat bit).setWidth 448

/-! Control words (Tables 7-4 to 7-6) -/

/-- The eight kinds of control word (Table 7-5). -/
inductive WordKind where
  | idle | cue | orderHead | orderBody | orderEnd | reportHead | reportBody | reportEnd
  deriving DecidableEq, Repr

/-- The kind codes (Table 7-5). -/
def WordKind.code : WordKind → BitVec 3
  | .idle => 0
  | .cue => 1
  | .orderHead => 2
  | .orderBody => 3
  | .orderEnd => 4
  | .reportHead => 5
  | .reportBody => 6
  | .reportEnd => 7

/-- The kind a code names (Table 7-5). -/
def WordKind.ofCode (c : BitVec 3) : WordKind :=
  match c.toNat with
  | 0 => .idle
  | 1 => .cue
  | 2 => .orderHead
  | 3 => .orderBody
  | 4 => .orderEnd
  | 5 => .reportHead
  | 6 => .reportBody
  | _ => .reportEnd

/-- The kind of a control word, bits 31 to 29 (Table 7-4). -/
def wordKind (w : ControlWord) : WordKind := WordKind.ofCode (w.extractLsb' 29 3)

/-- The station field of a control word, bits 28 to 24 (Table 7-4). -/
def wordStation (w : ControlWord) : BitVec 5 := w.extractLsb' 24 5

/-- The payload of a control word, bits 23 to 0 (Table 7-4). -/
def wordPayload (w : ControlWord) : Payload := w.extractLsb' 0 24

/-- The control word of a kind, a station field and a payload (Table 7-4). -/
def controlWord (kind : WordKind) (station : BitVec 5) (payload : Payload) : ControlWord :=
  kind.code ++ station ++ payload

/-- The IDLE word that the station sends (R141). -/
def idleWord : ControlWord := 0

/-- HEAD payload, bits 23 to 16: the code (Table 7-6). -/
def headCode (p : Payload) : BitVec 8 := p.extractLsb' 16 8

/-- HEAD payload, bits 15 to 8: the sequence (Table 7-6). -/
def headSeq (p : Payload) : BitVec 8 := p.extractLsb' 8 8

/-- HEAD and END payload, bits 7 to 0: the body length (Table 7-6). -/
def bodyLength (p : Payload) : Nat := (p.extractLsb' 0 8).toNat

/-- END payload, bits 23 to 8: the check (Table 7-6). -/
def endCheck (p : Payload) : BitVec 16 := p.extractLsb' 8 16

/-- The HEAD payload of a code, a sequence and a body length (Table 7-6). -/
def headPayload (code seq : BitVec 8) (length : Nat) : Payload := code ++ seq ++ BitVec.ofNat 8 length

/-- The END payload of a check and a body length (Table 7-6). -/
def endPayload (check : BitVec 16) (length : Nat) : Payload := check ++ BitVec.ofNat 8 length

/-- The cue number of a CUE payload, bits 23 to 12 (Table 7-6). -/
def cueNumber (p : Payload) : Fin 4096 := (p.extractLsb' 12 12).toFin

/-- The offset of a CUE payload, bits 11 to 0 (Table 7-6). -/
def cueOffset (p : Payload) : Fin 4096 := (p.extractLsb' 0 12).toFin

/-- The CUE payload of a cue number and an offset (Table 7-6). -/
def cuePayload (cue offset : Fin 4096) : Payload := (BitVec.ofFin cue : BitVec 12) ++ (BitVec.ofFin offset : BitVec 12)

/-- One step of the running sum of an order or report: the payload taken modulo 65,536 is added (R145, R147). -/
def addToSum (sum : BitVec 16) (p : Payload) : BitVec 16 := sum + p.extractLsb' 0 16

/-- The check of an order or a report: the sum modulo 65,536 of the HEAD payload and every BODY payload (R147, R183). -/
def bodyCheck (head : Payload) (body : List Payload) : BitVec 16 := body.foldl addToSum (addToSum 0 head)

/-! Order fields (R161) -/

/-- A field read as an unsigned number that must lie below `n`. -/
def fieldBelow (n : Nat) (w : Payload) : Option (Fin n) :=
  if h : w.toNat < n then some ⟨w.toNat, h⟩ else none

/-- A yes or no field: 0 for no and 1 for yes (R13). -/
def flagField (w : Payload) : Option Bool :=
  match w.toNat with
  | 0 => some false
  | 1 => some true
  | _ => none

/-- A record index with 256 standing for absent (R13, R161). -/
def linkField (w : Payload) : Option (Option (Fin 256)) :=
  if w.toNat = 256 then some none else (fieldBelow 256 w).map some

/-- A policy: QUEUE 0, CUT 1, SKIP 2 (R107). -/
def policyField (w : Payload) : Option Policy :=
  match w.toNat with
  | 0 => some .queue
  | 1 => some .cut
  | 2 => some .skip
  | _ => none

/-- A cue number that must lie in 1 to 4095 (R107, R108, R109). -/
def cueField (w : Payload) : Option (Fin 4096) :=
  if w.toNat = 0 then none else fieldBelow 4096 w

/-! Coded values of data and report words -/

/-- Policy codes (R107). -/
def Policy.code : Policy → Nat
  | .queue => 0
  | .cut => 1
  | .skip => 2

/-- Status codes (Table 8-3). -/
def Status.code : Status → Nat
  | .done => 0
  | .repeated => 1
  | .deferred => 2
  | .unknownOrder => 16
  | .badLength => 17
  | .badField => 18
  | .notFound => 19
  | .wrongState => 20
  | .unitBusy => 21
  | .mapFull => 22
  | .queueFull => 23
  | .storeFull => 24
  | .emptyClip => 25

/-- Phase codes (Table 9-3). -/
def Phase.code : Phase → Nat
  | .idle => 0
  | .fadeIn => 1
  | .onAir => 2
  | .fadeOut => 3
  | .pause => 4

/-- End mark codes (Table 9-5). -/
def EndMark.code : EndMark → Nat
  | .unmarked => 0
  | .released => 1
  | .cut => 2

/-- Pending kind codes (Table 9-5). -/
def PendingKind.code : PendingKind → Nat
  | .queued => 0
  | .cut => 1

/-- Clip state codes (R83). -/
def ClipState.code : ClipState → Nat
  | .free => 0
  | .reserved => 1
  | .filling => 2
  | .ready => 3
  | .doomed => 4

/-- Filler codes, absent coded 3 (R83). -/
def fillerCode : Option Filler → Nat
  | some (.unit u) => u.val
  | some .management => 2
  | none => 3

/-- Capture unit state codes (R88). -/
def UnitState.code : UnitState → Nat
  | .idle => 0
  | .armed => 1
  | .recording => 2

/-- Lock state codes (Table 9-3). -/
def LockState.code : LockState → Nat
  | .search => 0
  | .confirm => 1
  | .locked => 2

/-- A yes or no word: 1 for yes and 0 for no (R161). -/
def flagCode (b : Bool) : Nat := if b then 1 else 0

/-- The two words of a quantity that can exceed 16,777,215: upper part, then lower part (R161). -/
def twoWords (n : Nat) : List Nat := [n / 16777216, n % 16777216]

/-- A record index with absent returned as 256 (R161). -/
def indexOr256 : Option (Fin 256) → Nat
  | some r => r.val
  | none => 256

/-- Data and report words as 24-bit payloads. -/
def toPayloads (ws : List Nat) : List Payload := ws.map (BitVec.ofNat 24)

/-- The fields of a record in the order and coding of READ RECORD after its state word (R16). -/
def Record.words (r : Record) : List Nat :=
  let cue := match r.endCue with
    | some c => [c.cue.val, c.offset.val, flagCode c.forward]
    | none => [0, 0, 0]
  [r.length, r.start, r.repeats.val, r.rIn.val, r.rOut.val, r.under.val, indexOr256 r.next, flagCode r.reportStart,
    flagCode r.reportEnd, r.tag.val] ++ cue ++ [r.voices.length]
    ++ r.voices.flatMap fun v => [v.slot.val, v.clip.val]

/-! Reports (Tables 10-1 and 10-2) -/

/-- SPLICE ENDED reasons (Table 10-2). -/
inductive EndReason where
  | normal | released | cut | aborted | cleared | linkLost
  deriving DecidableEq, Repr

def EndReason.code : EndReason → Nat
  | .normal => 0
  | .released => 1
  | .cut => 2
  | .aborted => 3
  | .cleared => 4
  | .linkLost => 5

/-- CHAIN ENDED reasons (R25, Table 10-2). -/
inductive ChainReason where
  | emptyRecord | clipNotReady | void | slotConflict
  deriving DecidableEq, Repr

def ChainReason.code : ChainReason → Nat
  | .emptyRecord => 0
  | .clipNotReady => 1
  | .void => 2
  | .slotConflict => 3

/-- CAPTURE DONE reasons (Table 10-2). -/
inductive DoneReason where
  | complete | storeFull | linkLost
  deriving DecidableEq, Repr

def DoneReason.code : DoneReason → Nat
  | .complete => 0
  | .storeFull => 1
  | .linkLost => 2

/-- CAPTURE CANCELLED reasons (Table 10-2). -/
inductive CancelReason where
  | order | cleared | linkLost
  deriving DecidableEq, Repr

def CancelReason.code : CancelReason → Nat
  | .order => 0
  | .cleared => 1
  | .linkLost => 2

/-- ORDER DISCARDED reasons (R151). -/
inductive DiscardReason where
  | interrupted | tooLong | badLength | check | timeout | linkLost
  deriving DecidableEq, Repr

def DiscardReason.code : DiscardReason → Nat
  | .interrupted => 0
  | .tooLong => 1
  | .badLength => 2
  | .check => 3
  | .timeout => 4
  | .linkLost => 5

/-- An event report before the Report Queue has judged it (Table 10-1). The lane of a MISSED CUE is absent when a full
Trigger Queue raised it. -/
inductive Event where
  | spliceStarted (lane : Fin 8) (record tag : Fin 256)
  | spliceEnded (lane : Fin 8) (record tag : Fin 256) (reason : EndReason)
  | chainEnded (lane : Fin 8) (record : Fin 256) (reason : ChainReason)
  | missedCue (cue : Fin 4096) (lane : Option (Fin 8))
  | superseded (lane : Fin 8) (record : Fin 256)
  | captureStarted (unit : Fin 2) (clip : Nat)
  | captureDone (unit : Fin 2) (clip length : Nat) (reason : DoneReason)
  | captureCancelled (unit : Fin 2) (clip : Nat) (reason : CancelReason)
  | clipFreed (clip : Nat)
  | cueOutDropped (cue : Fin 4096)
  | linkLocked
  | linkLost (count : FrameCount)
  | orderDiscarded (seq : BitVec 8) (reason : DiscardReason)
  | lostEvents (count : Nat)
  deriving DecidableEq, Repr

/-- Report codes (Table 10-1). -/
def Event.code : Event → Nat
  | .spliceStarted .. => 1
  | .spliceEnded .. => 2
  | .chainEnded .. => 3
  | .missedCue .. => 4
  | .superseded .. => 5
  | .captureStarted .. => 6
  | .captureDone .. => 7
  | .captureCancelled .. => 8
  | .clipFreed .. => 9
  | .cueOutDropped .. => 10
  | .linkLocked => 11
  | .linkLost .. => 12
  | .orderDiscarded .. => 13
  | .lostEvents .. => 14

/-- Report bodies (Table 10-1); a MISSED CUE that names no lane carries 8 (Table 10-2). -/
def Event.words : Event → List Nat
  | .spliceStarted lane record tag => [lane.val, record.val, tag.val]
  | .spliceEnded lane record tag reason => [lane.val, record.val, tag.val, reason.code]
  | .chainEnded lane record reason => [lane.val, record.val, reason.code]
  | .missedCue cue lane => [cue.val, (lane.map Fin.val).getD 8]
  | .superseded lane record => [lane.val, record.val]
  | .captureStarted unit clip => [unit.val, clip]
  | .captureDone unit clip length reason => [unit.val, clip, length, reason.code]
  | .captureCancelled unit clip reason => [unit.val, clip, reason.code]
  | .clipFreed clip => [clip]
  | .cueOutDropped cue => [cue.val]
  | .linkLocked => []
  | .linkLost count => twoWords count.toNat
  | .orderDiscarded seq reason => [seq.toNat, reason.code]
  | .lostEvents count => [count]

end Sys2Proof.Machine
end

