-- ==== Sys2Proof/Machine/Flags.lean ====
section
/-! DEFINITION. The conditions the station derives from its state and its input: the frame test, the comparison of frame
counts, the fade envelopes, the fade index and the phase. -/

namespace Sys2Proof.Machine

/-! The frame test (R125) -/

/-- The check computed from sixteen samples and a control word: their sum as unsigned numbers modulo 65,536 (R125). -/
def frameCheck (samples : SampleSet) (control : ControlWord) : BitVec 16 :=
  BitVec.ofNat 16 (samples.toList.foldl (fun n x => n + x.toNat) 0 + control.toNat)

/-- A frame is good when its marker is the marker value and its check is the computed one (R125). -/
def Frame.good (f : Frame) : Bool :=
  f.marker == markerValue && f.check == frameCheck f.samples f.control

/-- The frame the Line Transmitter composes: marker value, samples, control word, fresh check (R136). -/
def composeFrame (samples : SampleSet) (control : ControlWord) : LineFrame :=
  frameToLine { marker := markerValue, samples := samples, control := control, check := frameCheck samples control }

/-- A station strapped 0 or 31 is transparent (R140). -/
def State.transparent (s : State) : Bool := s.station == 0 || s.station == 31

/-- The receiver works: the RESET line is not asserted and the station is not transparent (R132, R140). -/
def State.receiving (s : State) : Bool := !s.resetLine && !s.transparent

/-- The LOCK indicator (R142). -/
def State.lockIndicator (s : State) : Bool := s.lock == .locked && s.receiving

/-! Frame counts (R104, R105) -/

/-- Frame count x is not earlier than frame count y (R104). -/
def notEarlier (x y : FrameCount) : Bool := (x - y).toNat < 2147483648

/-- Frame count x is later than frame count y (R104). -/
def laterThan (x y : FrameCount) : Bool := notEarlier x y && x != y

/-- The entry falls due at the arrival of count `now`, or an earlier arrival should have taken it: `now` is later than
its admission and not earlier than its due frame (R105). -/
def TriggerEntry.fallsDue (now : FrameCount) (e : TriggerEntry) : Bool :=
  laterThan now e.admitted && notEarlier now e.due

/-- The frame count `offset` frames after `now`, modulo 2^32 (R105). -/
def dueFrame (now : FrameCount) (offset : Fin 4096) : FrameCount := now + BitVec.ofNat 32 offset.val

/-! Fades (R53 to R57) -/

/-- The up envelope at splice frame k (R53). -/
def upEnvelope (rIn : Fin 1024) (k : Nat) : Nat :=
  if rIn.val = 0 then 63 else min 63 (k / rIn.val)

/-- The down envelope at splice frame k under total T (R53). -/
def downEnvelope (rOut : Fin 1024) (total k : Nat) : Nat :=
  if rOut.val = 0 then 63 else min 63 ((total - 1 - k) / rOut.val)

/-- The fade index at splice frame k under total T (R54). -/
def fadeIndex (r : Record) (total k : Nat) : Nat :=
  min (upEnvelope r.rIn k) (downEnvelope r.rOut total k)

/-- A record without voices is a pause record (R6). -/
def Record.isPause (r : Record) : Bool := r.voices.isEmpty

/-- The phase at splice frame k under total T (R55). -/
def phaseAt (r : Record) (total k : Nat) : Phase :=
  if r.isPause then .pause
  else if fadeIndex r total k = 63 then .onAir
  else if upEnvelope r.rIn k ≤ downEnvelope r.rOut total k then .fadeIn
  else .fadeOut

/-- The new total of the release recompute at splice frame c (R57). -/
def recomputedTotal (r : Record) (total c : Nat) : Nat :=
  if r.isPause then c
  else if r.rOut.val = 0 then c
  else min total (c + fadeIndex r total c * r.rOut.val + 1)

/-! Lanes -/

/-- A lane is busy when its phase is not IDLE (R18). -/
def Lane.busy (l : Lane) : Bool := l.phase != .idle

end Sys2Proof.Machine
end

