-- ==== Sys2Proof/Machine/Ops.lean ====
section
/-! DEFINITION. The named operations over the tables, the sample memory, the clips, the queues and the report words: every
read and write that the blocks share. -/

namespace Sys2Proof.Machine

/-! Sparse tables: (number, value) pairs in strictly rising number -/

/-- The value listed under a number. -/
def sparseFind {α : Type} : List (Nat × α) → Nat → Option α
  | [], _ => none
  | (b, v) :: rest, a => if a = b then some v else sparseFind rest a

/-- The list with a value under a number, in place of what it listed there. -/
def sparseInsert {α : Type} : List (Nat × α) → Nat → α → List (Nat × α)
  | [], a, v => [(a, v)]
  | (b, w) :: rest, a, v =>
    if a < b then (a, v) :: (b, w) :: rest
    else if a = b then (a, v) :: rest
    else (b, w) :: sparseInsert rest a v

/-- The list without a number. -/
def sparseErase {α : Type} : List (Nat × α) → Nat → List (Nat × α)
  | [], _ => []
  | (b, w) :: rest, a => if a = b then rest else (b, w) :: sparseErase rest a

/-- The numbers rise strictly. -/
def sparseSorted {α : Type} : List (Nat × α) → Bool
  | [] => true
  | [_] => true
  | (a, _) :: (b, w) :: rest => a < b && sparseSorted ((b, w) :: rest)

/-! The sample memory (R64) -/

/-- The place of a block and an offset in the sample memory. -/
def sampleAddress (block offset : Nat) : Nat := 256 * block + offset

/-- What one place of the sample memory holds; absent when nothing has written it since power-on (R64). -/
def Memory.read (m : List (Nat × Sample)) (address : Nat) : Option Sample := sparseFind m address

/-- The sample memory after one write. -/
def Memory.write (m : List (Nat × Sample)) (address : Nat) (x : Sample) : List (Nat × Sample) := sparseInsert m address x

/-- The canonical form of the sample memory: places rise strictly. An unlisted place reads as absent, so no listed
entry equals what an unlisted one reads as. -/
def Memory.wf (m : List (Nat × Sample)) : Bool := sparseSorted m

/-- The sample a voice gets from a place: what was written there, or the undefined value of power-on (R64). -/
def State.sampleAt (s : State) (address : Nat) : Sample :=
  match Memory.read s.memory address with
  | some x => x
  | none => Config.powerOnSample address

/-! Splice Table, lanes, Slot Table, clips and units -/

/-- A record of the Splice Table; none when it is EMPTY (R1). -/
def State.record (s : State) (index : Nat) : Option Record := sparseFind s.table index

/-- Make a record LOADED (R14). -/
def State.setRecord (s : State) (index : Nat) (r : Record) : State := { s with table := sparseInsert s.table index r }

/-- Make a record EMPTY (R15). -/
def State.eraseRecord (s : State) (index : Nat) : State := { s with table := sparseErase s.table index }

/-- A lane context. -/
def State.lane (s : State) (i : Fin 8) : Lane := s.lanes[i]

/-- Replace a lane context. -/
def State.setLane (s : State) (i : Fin 8) (l : Lane) : State := { s with lanes := s.lanes.set i l }

/-- The Slot Table with every entry of `slots` set to `owner` (R21). -/
def State.setSlots (s : State) (slots : List (Fin 16)) (owner : Option (Fin 8)) : State :=
  { s with slots := Vector.ofFn fun j => if j ∈ slots then owner else s.slots[j] }

/-- A Clip Directory entry; one that is not listed is FREE (R68). -/
def State.clip (s : State) (c : Nat) : Clip := (sparseFind s.clips c).getD Clip.freed

/-- Replace a Clip Directory entry; a FREE one is not listed. -/
def State.setClip (s : State) (c : Nat) (v : Clip) : State :=
  { s with clips := if v = Clip.freed then sparseErase s.clips c else sparseInsert s.clips c v }

/-- A capture unit. -/
def State.unit (s : State) (u : Fin 2) : CaptureUnit := s.units[u]

/-- Replace a capture unit. -/
def State.setUnit (s : State) (u : Fin 2) (v : CaptureUnit) : State := { s with units := s.units.set u v }

/-! Uses, claims and returns (R66, R67, R73, R76) -/

/-- Add one use to a clip (R76). -/
def State.addUse (s : State) (c : Nat) : State := s.setClip c { s.clip c with uses := (s.clip c).uses + 1 }

/-- Release one use of a clip; a DOOMED clip that reaches 0 stays DOOMED for now (R76). -/
def State.releaseUse (s : State) (c : Nat) : State := s.setClip c { s.clip c with uses := (s.clip c).uses - 1 }

/-- Make a clip FREE and return its chain to the tail of the Free Block List, first block first (R67, R68). -/
def State.freeClip (s : State) (c : Nat) : State :=
  { s.setClip c Clip.freed with freeBlocks := s.freeBlocks ++ (s.clip c).chain }

/-- Write one sample at position length of a clip, claiming the head of the Free Block List first when the position is
a multiple of 256; absent when the list is empty then (R66, R69, R73). -/
def State.writeClip (s : State) (c : Nat) (x : Sample) : Option State :=
  let clip := s.clip c
  if clip.length % 256 = 0 then
    match s.freeBlocks with
    | [] => none
    | block :: rest =>
      some { s.setClip c { clip with length := clip.length + 1, chain := clip.chain ++ [block] } with
        memory := Memory.write s.memory (sampleAddress block 0) x
        freeBlocks := rest }
  else
    let block := clip.chain.getD (clip.length / 256) 0
    some { s.setClip c { clip with length := clip.length + 1 } with
      memory := Memory.write s.memory (sampleAddress block (clip.length % 256)) x }

/-- The sample at a position of a clip: block number position / 256 of its chain at offset position mod 256 (R78). -/
def State.readClipSample (s : State) (c position : Nat) : Sample :=
  s.sampleAt (sampleAddress ((s.clip c).chain.getD (position / 256) 0) (position % 256))

/-- The DOOMED clips with use count 0, in ascending clip number (R76). -/
def State.doomedUnused (s : State) : List Nat :=
  (s.clips.filter fun p => p.2.state == .doomed && p.2.uses == 0).map Prod.fst

/-- Free the DOOMED clips whose use count has reached 0, in ascending clip number, each with its chain returned and a
CLIP FREED (R67, R76). -/
def State.freeDoomed (s : State) : State × List Event :=
  (s.doomedUnused.foldl State.freeClip s, s.doomedUnused.map Event.clipFreed)

/-! The Report Queue (R183 to R186) -/

/-- The number of event reports held (R185). -/
def State.eventCount (s : State) : Nat := s.reports.countP fun r => r.code != 0

/-- Fewer than 24 event reports and fewer than 32 reports in all (R185). -/
def State.roomForEvent (s : State) : Bool := s.eventCount < 24 && s.reports.length < 32

/-- Place an event report at the tail with the present event sequence, which then increases by one (R184). -/
def State.queueEvent (s : State) (e : Event) : State :=
  { s with
    reports := s.reports ++ [{ code := e.code, seq := s.eventSeq, body := toPayloads e.words }]
    eventSeq := s.eventSeq + 1 }

/-- Admit an event report when there is room; otherwise discard it and count it, up to 65,535 (R185). -/
def State.judgeEvent (s : State) (e : Event) : State :=
  if s.roomForEvent then s.queueEvent e else { s with lost := min 65535 (s.lost + 1) }

/-- Offer an event report: LOST EVENTS goes first while the lost-events count is above 0 (R186). -/
def State.offerEvent (s : State) (e : Event) : State :=
  if s.lost = 0 then s.judgeEvent e
  else if s.roomForEvent then ({ s.queueEvent (.lostEvents s.lost) with lost := 0 }).judgeEvent e
  else s.judgeEvent e

/-- Offer event reports one after another. -/
def State.offerEvents (s : State) (es : List Event) : State := es.foldl State.offerEvent s

/-- Place an acknowledgement at the tail (R158, R185). -/
def State.queueAck (s : State) (seq : BitVec 8) (body : List Nat) : State :=
  { s with reports := s.reports ++ [{ code := 0, seq := seq, body := toPayloads body }] }

/-- The HEAD payload of a report (R183). -/
def Report.headWord (r : Report) : Payload := headPayload (BitVec.ofNat 8 r.code) r.seq r.body.length

/-- The control words of a report in the order they leave: HEAD, BODY words, END (R183, R191). -/
def Report.words (station : BitVec 5) (r : Report) : List ControlWord :=
  controlWord .reportHead station r.headWord
    :: (r.body.map (controlWord .reportBody station)
      ++ [controlWord .reportEnd station (endPayload (bodyCheck r.headWord r.body) r.body.length)])

/-- The word the Report Queue offers: the word of its head report at the word position (R191). -/
def State.offeredReportWord (s : State) : Option ControlWord :=
  match s.reports with
  | [] => none
  | r :: _ => (r.words s.station)[s.wordPos]?

/-- The word offered is the END word of the head report (R191). -/
def State.offersLastWord (s : State) : Bool :=
  match s.reports with
  | [] => false
  | r :: _ => s.wordPos == r.body.length + 1

/-- The head report leaves the queue and the word position returns to 0 (R191). -/
def State.dropHeadReport (s : State) : State := { s with reports := s.reports.tail, wordPos := 0 }

/-! The Cue Map, the Trigger Queue and the Cue Out list -/

/-- The Cue Map entry of a cue number (R106). -/
def State.mapped (s : State) (cue : Fin 4096) : Option CueMapEntry := s.cueMap.find? fun e => e.cue == cue

/-- The queue with an entry after every entry whose due frame is not later than its own (R110). -/
def insertTrigger (e : TriggerEntry) : List TriggerEntry → List TriggerEntry
  | [] => [e]
  | h :: rest => if laterThan h.due e.due then e :: h :: rest else h :: insertTrigger e rest

/-- The Trigger Queue holds 16 entries or more (R110, R113). -/
def State.triggersFull (s : State) : Bool := 16 ≤ s.triggers.length

/-- Enter a trigger at the arrival of the present frame count, due `offset` frames after it (R105, R110). -/
def State.enterTrigger (s : State) (offset : Fin 4096) (kind : TriggerKind) : State :=
  { s with
    triggers := insertTrigger { due := dueFrame s.frameCount offset, admitted := s.frameCount, kind := kind } s.triggers }

/-- A capture unit is ARMED on a cue number (R111). -/
def CaptureUnit.awaits (v : CaptureUnit) (cue : Fin 4096) : Bool := v.state == .armed && v.cue == some cue

/-- A cue that passes the admission test finds room and is entered, or raises MISSED CUE with no lane (R113, R118). -/
def State.admitCue (s : State) (cue offset : Fin 4096) : State × List Event :=
  if s.triggersFull then (s, [.missedCue cue none]) else (s.enterTrigger offset (.cue cue), [])

/-- A forwarded end cue joins the Cue Out list, or raises CUE OUT DROPPED when it holds 4 entries (R119). -/
def State.placeCueOut (s : State) (c : EndCue) : State × List Event :=
  if 4 ≤ s.cueOut.length then (s, [.cueOutDropped c.cue])
  else ({ s with cueOut := s.cueOut ++ [{ cue := c.cue, due := dueFrame s.frameCount c.offset }] }, [])

/-- The offset a Cue Out entry leaves with at the arrival of count `now`: the frames to go when they lie in 1 to 4095,
else 0 (R120). -/
def CueOutEntry.offsetAt (e : CueOutEntry) (now : FrameCount) : Fin 4096 :=
  if h : (e.due - now).toNat < 4096 then ⟨(e.due - now).toNat, h⟩ else 0

/-- The cue word of a Cue Out entry, station field 0 (R120). -/
def CueOutEntry.word (e : CueOutEntry) (now : FrameCount) : ControlWord :=
  controlWord .cue 0 (cuePayload e.cue (e.offsetAt now))

end Sys2Proof.Machine
end

