-- ==== Sys2Proof/Machine/Lanes.lean ====
section
/-! DEFINITION. The lanes of the Splice Engine: load, end, triggers, RELEASE and ABORT, abandonment, and the mix. -/

namespace Sys2Proof.Machine

/-- The lanes' work under way: the state, the lanes' reports in the order they are to be offered (R47) and the end cues
handed to the Trigger Unit in ascending lane number (R113). -/
structure LaneWork where
  st : State
  reports : List Event
  endCues : List EndCue
  deriving DecidableEq, Repr

/-- The lanes' work before any lane has done anything. -/
def LaneWork.start (s : State) : LaneWork := { st := s, reports := [], endCues := [] }

/-- Replace a lane context. -/
def LaneWork.setLane (w : LaneWork) (i : Fin 8) (l : Lane) : LaneWork := { w with st := w.st.setLane i l }

/-- A lane queues reports (R47). -/
def LaneWork.report (w : LaneWork) (es : List Event) : LaneWork := { w with reports := w.reports ++ es }

/-- The effective length E: the smallest of N and, for each voice, its clip's length less the start offset (R10). A
difference below 0 counts as 0: the load asks only whether E is 0 or less (R11). -/
def effectiveLength (s : State) (r : Record) : Nat :=
  r.voices.foldl (fun e v => min e ((s.clip v.clip.val).length - r.start)) r.length

/-- The record a lane is to load, or the reason of the first test that fails (R25). -/
def loadTest (s : State) (i : Fin 8) (index : Fin 256) : Except ChainReason Record :=
  match s.record index.val with
  | none => .error .emptyRecord
  | some r =>
    if r.voices.any fun v => (s.clip v.clip.val).state != .ready then .error .clipNotReady
    else if effectiveLength s r = 0 then .error .void
    else if r.voices.any fun v => s.slots[v.slot] != none && s.slots[v.slot] != some i then .error .slotConflict
    else .ok r

/-- The output slots of a record's voices, in ascending slot number. -/
def Record.slotSet (r : Record) : List (Fin 16) := (List.finRange 16).filter fun j => r.voices.any fun v => v.slot == j

/-- The context of a lane that has just committed the load of a record (R26). -/
def Lane.loaded (index : Fin 256) (r : Record) (e : Nat) : Lane where
  phase := phaseAt r (e * (r.repeats.val + 1)) 0
  copy := some r
  source := some index
  k := 0
  effLen := e
  total := e * (r.repeats.val + 1)
  mark := .unmarked
  pending := none
  slots := r.slotSet
  waiting := none

/-- A load commits: slots claimed, one use added for each voice, SPLICE STARTED if asked (R26). -/
def commitLoad (i : Fin 8) (index : Fin 256) (r : Record) (w : LaneWork) : LaneWork :=
  let claimed := w.st.setSlots r.slotSet (some i)
  let used := r.voices.foldl (fun s v => s.addUse v.clip.val) claimed
  let started := used.setLane i (Lane.loaded index r (effectiveLength w.st r))
  { w with st := started }.report (if r.reportStart then [.spliceStarted i index r.tag] else [])

/-- A lane loads a record: the load commits, or the chain ends and the lane is IDLE (R25 to R27). -/
def loadRecord (i : Fin 8) (index : Fin 256) (w : LaneWork) : LaneWork :=
  match loadTest w.st i index with
  | .ok r => commitLoad i index r w
  | .error reason => (w.setLane i Lane.idle).report [.chainEnded i index reason]

/-- A lane gives up its claims: its slots and one use for each voice of its copy (R29 step 1, R43 steps 1 and 2). -/
def releaseClaims (i : Fin 8) (r : Record) (s : State) : State :=
  let freed := s.setSlots (s.lane i).slots none
  let unused := r.voices.foldl (fun s v => s.releaseUse v.clip.val) freed
  unused.setLane i { s.lane i with slots := [] }

/-- The SPLICE ENDED of a lane, if its copy asks for it (R8). -/
def endReport (i : Fin 8) (l : Lane) (r : Record) (reason : EndReason) : List Event :=
  if r.reportEnd then [.spliceEnded i (l.source.getD 0) r.tag reason] else []

/-- The SPLICE ENDED reason of an end mark (R29). -/
def EndMark.reason : EndMark → EndReason
  | .unmarked => .normal
  | .released => .released
  | .cut => .cut

/-- The end cue an ending lane hands to the Trigger Unit: none under mark CUT (R29, R31). -/
def handedEndCue (l : Lane) (r : Record) : List EndCue :=
  if l.mark = .cut then [] else r.endCue.toList

/-- The running record of a lane ends (R29). -/
def endRecord (i : Fin 8) (w : LaneWork) : LaneWork :=
  let l := w.st.lane i
  match l.copy with
  | none => w
  | some r =>
    let ended : LaneWork :=
      { st := releaseClaims i r w.st
        reports := w.reports ++ endReport i l r l.mark.reason
        endCues := w.endCues ++ handedEndCue l r }
    match l.pending with
    | some p => loadRecord i p.record ended
    | none =>
      match l.mark, r.next with
      | .unmarked, some index => loadRecord i index ended
      | _, _ => ended.setLane i Lane.idle

/-- The reports of a pending trigger that CUT or RELEASE discards (R33). -/
def supersededReport (i : Fin 8) (l : Lane) : List Event :=
  match l.pending with
  | some p => [.superseded i p.record]
  | none => []

/-- A waiting RELEASE is applied (R41). -/
def applyReleaseOrder (i : Fin 8) (w : LaneWork) : LaneWork :=
  let l := w.st.lane i
  match l.copy with
  | none => w
  | some r =>
    let mark := if l.mark = .unmarked then .released else l.mark
    let total := if l.mark = .unmarked ∧ l.k < l.total then recomputedTotal r l.total l.k else l.total
    (w.setLane i { l with pending := none, mark := mark, total := total, waiting := none }).report (supersededReport i l)

/-- A waiting ABORT is applied: the record ends at once (R42). -/
def applyAbortOrder (i : Fin 8) (w : LaneWork) : LaneWork :=
  let l := w.st.lane i
  match l.copy with
  | none => w
  | some r =>
    { w with st := (releaseClaims i r w.st).setLane i Lane.idle }.report (endReport i l r .aborted)

/-- Step 1 of a lane's frame work: the splice frame counter of a busy lane increases by one (R23, R24). -/
def advanceLane (i : Fin 8) (w : LaneWork) : LaneWork :=
  let l := w.st.lane i
  if l.busy then w.setLane i { l with k := l.k + 1 } else w

/-- Step 2 of a lane's frame work: the waiting order is applied and made absent (R20, R23). -/
def applyWaiting (i : Fin 8) (w : LaneWork) : LaneWork :=
  match (w.st.lane i).waiting with
  | none => w
  | some .release => applyReleaseOrder i w
  | some .abort => applyAbortOrder i w

/-- Step 3 of a lane's frame work: a busy lane whose counter equals T ends its record (R23, R29). -/
def endIfDue (i : Fin 8) (w : LaneWork) : LaneWork :=
  let l := w.st.lane i
  if l.busy && l.k == l.total then endRecord i w else w

/-- A trigger delivered to a lane: a record index, a policy and a cue number, 0 for a TAKE (R34). -/
structure LaneTrigger where
  lane : Fin 8
  record : Fin 256
  policy : Policy
  cue : Fin 4096
  deriving DecidableEq, Repr

/-- A CUT trigger meets a busy lane (R37); the record ends at once when the recompute leaves T at the present k (R38). -/
def cutTrigger (i : Fin 8) (t : LaneTrigger) (w : LaneWork) : LaneWork :=
  let l := w.st.lane i
  match l.copy with
  | none => w
  | some r =>
    let reported := w.report (supersededReport i l)
    let waiting := { l with pending := some { record := t.record, kind := .cut }, mark := .cut }
    if l.mark = .unmarked then
      let total := recomputedTotal r l.total l.k
      let cut := reported.setLane i { waiting with total := total }
      if total = l.k then endRecord i cut else cut
    else reported.setLane i waiting

/-- A QUEUE trigger meets a busy lane (R36). -/
def queueTrigger (i : Fin 8) (t : LaneTrigger) (w : LaneWork) : LaneWork :=
  let l := w.st.lane i
  match l.pending with
  | none => w.setLane i { l with pending := some { record := t.record, kind := .queued } }
  | some _ => w.report [.missedCue t.cue (some i)]

/-- A trigger is applied to a lane as the earlier steps have left it (R34 to R39). -/
def applyTrigger (i : Fin 8) (w : LaneWork) (t : LaneTrigger) : LaneWork :=
  if (w.st.lane i).busy then
    match t.policy with
    | .queue => queueTrigger i t w
    | .cut => cutTrigger i t w
    | .skip => w
  else loadRecord i t.record w

/-- Step 4 of a lane's frame work: the triggers delivered to this lane, in the order of delivery (R23, R34). -/
def applyTriggers (triggers : List LaneTrigger) (i : Fin 8) (w : LaneWork) : LaneWork :=
  (triggers.filter fun t => t.lane == i).foldl (applyTrigger i) w

/-- Steps 1 to 4 of one lane's frame work (R23). -/
def laneSteps (triggers : List LaneTrigger) (i : Fin 8) (w : LaneWork) : LaneWork :=
  applyTriggers triggers i (endIfDue i (applyWaiting i (advanceLane i w)))

/-! Abandonment (R43) -/

/-- One lane is abandoned (R43). -/
def abandonLane (reason : EndReason) (w : LaneWork) (i : Fin 8) : LaneWork :=
  let l := w.st.lane i
  match l.copy with
  | none => w
  | some r =>
    { w with st := (releaseClaims i r w.st).setLane i Lane.idle }.report (endReport i l r reason)

/-- Every busy lane is abandoned, in ascending lane number (R43). -/
def abandonLanes (reason : EndReason) (s : State) : LaneWork :=
  (List.finRange 8).foldl (abandonLane reason) (LaneWork.start s)

/-! The mix (R46, R60 to R63) -/

/-- Step 5 of the frame work, the phase of every busy lane (R19, R23). -/
def setPhases (s : State) : State :=
  { s with
    lanes := Vector.ofFn fun i =>
      match s.lanes[i].copy with
      | none => s.lanes[i]
      | some r => { s.lanes[i] with phase := phaseAt r s.lanes[i].total s.lanes[i].k } }

/-- A sum divided by 65,536, truncated toward zero and limited to the sample range (R61 steps 5 and 6). -/
def limitSum (sum : Int) : Sample := BitVec.ofInt 24 (max (-8388608) (min 8388607 (sum.tdiv 65536)))

/-- A Fade Law Table entry. -/
def State.lawEntry (s : State) (index : Nat) : Nat := s.law.toList.getD index 0

/-- The output sample of an owned slot from the clip sample, the programme sample, the fade index and the under level
(R61). -/
def mixSample (s : State) (clip programme : Sample) (index under : Nat) : Sample :=
  limitSum (clip.toInt * (s.lawEntry index : Int) + programme.toInt * (s.lawEntry (max (63 - index) under) : Int))

/-- The clip sample a voice contributes: position start offset + (k mod E) of its clip (R46, R63, R78). -/
def voiceSample (s : State) (l : Lane) (r : Record) (v : Voice) : Sample :=
  s.readClipSample v.clip.val (r.start + l.k % l.effLen)

/-- Output slot `j`: formed from its owner's contribution, or the programme sample unchanged (R60). -/
def formSlot (s : State) (programme : SampleSet) (j : Fin 16) : Sample :=
  match s.slots[j] with
  | none => programme[j]
  | some i =>
    let l := s.lane i
    match l.copy with
    | none => programme[j]
    | some r =>
      match r.voices.find? fun v => v.slot == j with
      | none => programme[j]
      | some v => mixSample s (voiceSample s l r v) programme[j] (fadeIndex r l.total l.k) r.under.val

/-- The sixteen output samples of an arrival (R60). -/
def mixFrame (s : State) (programme : SampleSet) : SampleSet := Vector.ofFn fun j => formSlot s programme j

end Sys2Proof.Machine
end

