-- ==== Sys2Proof/Machine/Capture.lean ====
section
/-! DEFINITION. The two capture units: start on a cue, the write of one sample, completion, exhaustion of the store,
cancellation and link loss. -/

namespace Sys2Proof.Machine

/-- The clip number of a unit that holds a clip. -/
def CaptureUnit.clipNumber (v : CaptureUnit) : Nat := (v.clip.map Fin.val).getD 0

/-- An ARMED unit receives its awaited cue: RECORDING, its clip FILLING, CAPTURE STARTED queued (R92). -/
def startUnit (u : Fin 2) (s : State) : State × List Event :=
  let v := s.unit u
  let c := v.clipNumber
  let recording := s.setUnit u { v with state := .recording, cue := none }
  (recording.setClip c { s.clip c with state := .filling }, [.captureStarted u c])

/-- The capture of a unit completes: its clip READY, the unit IDLE, CAPTURE DONE with COMPLETE (R95). -/
def completeCapture (u : Fin 2) (s : State) : State × List Event :=
  let c := (s.unit u).clipNumber
  ((s.setUnit u CaptureUnit.idle).setClip c { s.clip c with state := .ready, filler := none, short := false },
    [.captureDone u c (s.clip c).length .complete])

/-- A RECORDING unit ends short: its clip READY with the short flag, or FREE when no sample was written; CAPTURE DONE
(R96, R98). -/
def endCaptureShort (reason : DoneReason) (u : Fin 2) (s : State) : State × List Event :=
  let v := s.unit u
  let c := v.clipNumber
  let idle := s.setUnit u CaptureUnit.idle
  if v.written = 0 then (idle.freeClip c, [.captureDone u c 0 reason])
  else (idle.setClip c { s.clip c with state := .ready, filler := none, short := true },
    [.captureDone u c v.written reason])

/-- A RECORDING unit writes the sample of its input slot (R94), completes when it has written the wanted length (R95),
and ends when its claim gets no block (R96). -/
def writeUnit (programme : SampleSet) (u : Fin 2) (s : State) : State × List Event :=
  let v := s.unit u
  match s.writeClip v.clipNumber (programme.toList.getD ((v.slot.map Fin.val).getD 0) 0) with
  | none => endCaptureShort .storeFull u s
  | some written =>
    let counted := written.setUnit u { v with written := v.written + 1 }
    if v.written + 1 = v.wanted then completeCapture u counted else (counted, [])

/-- The frame work of one unit: start if a cue is delivered to it, then write if RECORDING (R93). -/
def unitWork (programme : SampleSet) (delivered : Bool) (u : Fin 2) (s : State) : State × List Event :=
  let (started, es) := if delivered then startUnit u s else (s, [])
  if (started.unit u).state = .recording then
    let (written, es') := writeUnit programme u started
    (written, es ++ es')
  else (started, es)

/-- A unit that is not IDLE is cancelled: its clip FREE with its chain returned, the unit IDLE, CAPTURE CANCELLED
(R97, R99). -/
def cancelUnit (reason : CancelReason) (u : Fin 2) (s : State) : State × List Event :=
  let v := s.unit u
  if v.state = .idle then (s, [])
  else ((s.freeClip v.clipNumber).setUnit u CaptureUnit.idle, [.captureCancelled u v.clipNumber reason])

/-- A unit at the arrival of a link loss (R98). -/
def loseUnit (u : Fin 2) (s : State) : State × List Event :=
  match (s.unit u).state with
  | .idle => (s, [])
  | .armed => cancelUnit .linkLost u s
  | .recording => endCaptureShort .linkLost u s

/-- One unit's operation and then the other's, unit 0 first (R99, R101). -/
def eachUnit (f : Fin 2 → State → State × List Event) (s : State) : State × List Event :=
  let (s0, es0) := f 0 s
  let (s1, es1) := f 1 s0
  (s1, es0 ++ es1)

/-- The unit's write at this arrival needs a block: the position is a multiple of 256 (R94). -/
def needsBlock (delivered : Bool) (v : CaptureUnit) : Bool :=
  (v.state == .recording || delivered) && v.written % 256 == 0

end Sys2Proof.Machine
end

