-- ==== Sys2Proof/Machine/Triggers.lean ====
section
/-! DEFINITION. The Trigger Unit: falling due and delivery, admission, end cues. -/

namespace Sys2Proof.Machine

/-- The entries that fall due at the arrival of the present frame count, in queue order (R105, R114). -/
def State.dueEntries (s : State) : List TriggerEntry := s.triggers.filter (TriggerEntry.fallsDue s.frameCount)

/-- The queue once the entries that fall due have left it (R114). -/
def State.dropDue (s : State) : State :=
  { s with triggers := s.triggers.filter fun e => !e.fallsDue s.frameCount }

/-- The triggers an entry delivers to lanes: what the Cue Map holds for a CUE at its due, what the order carried for a
TAKE, with cue number 0 (R115, R116). -/
def laneDeliveries (s : State) (e : TriggerEntry) : List LaneTrigger :=
  match e.kind with
  | .take lane record policy => [{ lane := lane, record := record, policy := policy, cue := 0 }]
  | .cue n =>
    match s.mapped n with
    | none => []
    | some m => [{ lane := m.lane, record := m.record, policy := m.policy, cue := n }]

/-- A cue that falls due among these entries is delivered to a unit ARMED on it (R92, R115). -/
def deliveredTo (entries : List TriggerEntry) (v : CaptureUnit) : Bool :=
  entries.any fun e =>
    match e.kind with
    | .cue n => v.awaits n
    | .take _ _ _ => false

/-- The admission test: the Cue Map holds the number, or a capture unit counts as ARMED on it (R111). -/
def passesAdmission (s : State) (awaited : Fin 4096 → Bool) (cue : Fin 4096) : Bool :=
  (s.mapped cue).isSome || awaited cue

/-- A cue number is the awaited cue of a capture unit that is ARMED now (R111). -/
def State.awaited (s : State) (cue : Fin 4096) : Bool := (s.unit 0).awaits cue || (s.unit 1).awaits cue

/-- A cue is offered for admission (R111, R113). -/
def offerCue (s : State) (awaited : Fin 4096 → Bool) (cue offset : Fin 4096) : State × List Event :=
  if passesAdmission s awaited cue then s.admitCue cue offset else (s, [])

/-- The admissions of an arrival, in the order of R113: `awaited j` is the capture units' answer to the admission with
number `j` of the arrival (R112). -/
def offerCues (awaited : Nat → Fin 4096 → Bool) : Nat → List (Fin 4096 × Fin 4096) → State → State × List Event
  | _, [], s => (s, [])
  | j, (cue, offset) :: rest, s =>
    let (s1, es1) := offerCue s (awaited j) cue offset
    let (s2, es2) := offerCues awaited (j + 1) rest s1
    (s2, es1 ++ es2)

/-- The forwarded end cues of an arrival join the Cue Out list, in ascending lane number (R118, R119). -/
def placeCues : List EndCue → State → State × List Event
  | [], s => (s, [])
  | c :: rest, s =>
    let (s1, es1) := if c.forward then s.placeCueOut c else (s, [])
    let (s2, es2) := placeCues rest s1
    (s2, es1 ++ es2)

/-- The Trigger Unit's part of an arrival: admissions of the end cues and then of the cue word, and forwarding, with
the MISSED CUE reports before the CUE OUT DROPPED reports (R113, R118, R187). -/
def admitAll (awaited : Nat → Fin 4096 → Bool) (endCues : List EndCue) (cueWord : List (Fin 4096 × Fin 4096))
    (s : State) : State × List Event :=
  let (admitted, missed) := offerCues awaited 0 (endCues.map (fun c => (c.cue, c.offset)) ++ cueWord) s
  let (placed, dropped) := placeCues endCues admitted
  (placed, missed ++ dropped)

/-- The reports and admissions that follow the lanes' work when it stands alone: DOOMED clips freed, end cues admitted
and forwarded, and the reports offered in the order of R187. `unitEvents` are the capture units' reports. -/
def finishLanes (unitEvents : List Event) (w : LaneWork) : State :=
  let (freed, freedEvents) := w.st.freeDoomed
  let (admitted, triggerEvents) := admitAll (fun _ => freed.awaited) w.endCues [] freed
  admitted.offerEvents (w.reports ++ freedEvents ++ unitEvents ++ triggerEvents)

/-- Work done at the arrival of the next frame count, by an event that does not advance the count itself (log entry 5). -/
def State.atNextCount (f : State → State) (s : State) : State :=
  { f { s with frameCount := s.frameCount + 1 } with frameCount := s.frameCount }

/-- The Trigger Queue and the Cue Out list are emptied without report (R122, R123). -/
def State.flushTriggers (s : State) : State := { s with triggers := [], cueOut := [] }

end Sys2Proof.Machine
end

