-- ==== Sys2Proof/Machine/Taking.lean ====
section
/-! DEFINITION. Taking an order: the room test, the last-taken memory and the acknowledgement, shared by every order. An
order row of the table takes a whole order as one command, without its words. DESIGN CHOICE (log entry 4): the row leaves the
order in assembly as it stands, where the words of the order would have interrupted it and left the assembly absent (R144,
R146); FRAME_ARRIVAL, which brings the words, does as those rules say. -/

namespace Sys2Proof.Machine

/-- What executing an order gives: its status, the data it returns, the state with its effect made, and the event
reports its execution raises, to be offered after its acknowledgement (R158, R163). -/
structure OrderResult where
  status : Status
  data : List Nat
  st : State
  events : List Event
  deriving DecidableEq, Repr

/-- An order that a test refuses changes nothing (R159, R162). -/
def OrderResult.refuse (status : Status) (s : State) : OrderResult :=
  { status := status, data := [], st := s, events := [] }

/-- An order acknowledged DONE that raises no event report. -/
def OrderResult.done (s : State) : OrderResult := { status := .done, data := [], st := s, events := [] }

/-- A READ order acknowledged DONE with data; it changes nothing. -/
def OrderResult.read (data : List Nat) (s : State) : OrderResult :=
  { status := .done, data := data, st := s, events := [] }

/-- The Report Queue has no free entry for an acknowledgement (R152). -/
def State.reportsFull (s : State) : Bool := 32 ≤ s.reports.length

/-- The remembered status when the order is a repeat: the memory holds the same sequence and code (R156). -/
def State.repeatOf (s : State) (code seq : BitVec 8) : Option Status :=
  match s.lastTaken with
  | none => none
  | some m => if m.seq = seq ∧ m.code = code then some m.status else none

/-- A READ order is taken: executed whatever the memory holds, and answered (R154, R158). The order in assembly, if any, is
none of its concern (DESIGN CHOICE for an order row, log entry 4). -/
def takeRead (code seq : BitVec 8) (execute : State → OrderResult) (s : State) : State :=
  if s.reportsFull then s
  else
    let r := execute s
    (r.st.queueAck seq (code.toNat :: r.status.code :: r.data)).offerEvents r.events

/-- A state-changing order is taken: answered REPEATED when it is a repeat, otherwise executed, recorded in the
last-taken memory and answered, its event reports after its acknowledgement (R152, R154 to R158, R163). The order in
assembly, if any, is none of its concern (DESIGN CHOICE for an order row, log entry 4). -/
def takeChange (code seq : BitVec 8) (execute : State → OrderResult) (s : State) : State :=
  if s.reportsFull then s
  else
    match s.repeatOf code seq with
    | some status => s.queueAck seq [code.toNat, Status.repeated.code, status.code]
    | none =>
      let r := execute s
      let recorded : State := { r.st with lastTaken := some { seq := seq, code := code, status := r.status } }
      (recorded.queueAck seq (code.toNat :: r.status.code :: r.data)).offerEvents r.events

/-- An order of unknown code is taken: acknowledged UNKNOWN ORDER, nothing else changes (R154), the order in assembly among
it (DESIGN CHOICE for an order row, log entry 4). -/
def takeUnknown (code seq : BitVec 8) (s : State) : State :=
  if s.reportsFull then s else s.queueAck seq [code.toNat, Status.unknownOrder.code]

/-- Orders are taken only while the receiver is LOCKED (R138, R165): otherwise none reaches the Order Unit. DESIGN CHOICE (log
entries 4, 5): a row that comes at the frame count 0 of a lock, before the first classified arrival, of count 1 (R128, R137,
R143), is taken as at any other count; the manual gives no order and no event there. -/
def whenLocked (f : State → State) (s : State) : State := if s.lock = .locked then f s else s

end Sys2Proof.Machine
end

