-- ==== Sys2Proof/Machine/CaptureOrders.lean ====
section
/-! DEFINITION. CAPTURE and CANCEL CAPTURE. -/

namespace Sys2Proof.Machine

/-- A CAPTURE with trigger cue 0: the unit RECORDING, the clip FILLING (R90). -/
def captureNow (u : Fin 2) (c : Fin 512) (slot : Fin 16) (wanted : Nat) (s : State) : State :=
  (s.setUnit u { state := .recording, clip := some c, slot := some slot, wanted := wanted, cue := none, written := 0 }).setClip
    c.val { Clip.freed with state := .filling, filler := some (.unit u) }

/-- A CAPTURE with a trigger cue: the unit ARMED on it, the clip RESERVED (R91). -/
def captureArmed (u : Fin 2) (c : Fin 512) (slot : Fin 16) (wanted : Nat) (cue : Fin 4096) (s : State) : State :=
  (s.setUnit u { state := .armed, clip := some c, slot := some slot, wanted := wanted, cue := some cue, written := 0 }).setClip
    c.val { Clip.freed with state := .reserved, filler := some (.unit u) }

/-- CAPTURE: its tests in order, then the start or the arming (R89 to R91). -/
def orderCapture (body : List Payload) (s : State) : OrderResult :=
  match body with
  | [unit, clip, slot, wanted, cue] =>
    match fieldBelow 2 unit, fieldBelow 512 clip, fieldBelow 16 slot, fieldBelow 4096 cue with
    | some u, some c, some j, some n =>
      if wanted.toNat = 0 ∨ 1048576 < wanted.toNat then .refuse .badField s
      else if (s.unit u).state ≠ .idle then .refuse .unitBusy s
      else if (s.clip c.val).state ≠ .free then .refuse .wrongState s
      else if n.val = 0 then .done (captureNow u c j wanted.toNat s)
      else .done (captureArmed u c j wanted.toNat n s)
    | _, _, _, _ => .refuse .badField s
  | _ => .refuse .badLength s

/-- CAPTURE_NOW: order code 18 is taken, its trigger cue 0 (R90). -/
def execCaptureNow (seq : BitVec 8) (body : List Payload) (s : State) : Host.Outcome State Fault Refusal :=
  .next (whenLocked (takeChange 18 seq (orderCapture body)) s)

/-- CAPTURE_ARMED: order code 18 is taken, its trigger cue not 0 (R91). -/
def execCaptureArmed (seq : BitVec 8) (body : List Payload) (s : State) : Host.Outcome State Fault Refusal :=
  .next (whenLocked (takeChange 18 seq (orderCapture body)) s)

/-- CANCEL CAPTURE (R97). -/
def orderCancelCapture (body : List Payload) (s : State) : OrderResult :=
  match body with
  | [unit] =>
    match fieldBelow 2 unit with
    | none => .refuse .badField s
    | some u =>
      if (s.unit u).state = .idle then .refuse .wrongState s
      else
        let (cancelled, events) := cancelUnit .order u s
        { status := .done, data := [], st := cancelled, events := events }
  | _ => .refuse .badLength s

/-- CANCEL_CAPTURE: order code 19 is taken (R97). -/
def execCancelCapture (seq : BitVec 8) (body : List Payload) (s : State) : Host.Outcome State Fault Refusal :=
  .next (whenLocked (takeChange 19 seq (orderCancelCapture body)) s)

end Sys2Proof.Machine
end

