-- ==== Sys2Proof/Machine/ClipOrders.lean ====
section
/-! DEFINITION. The orders that open, fill, close, delete and read clips. -/

namespace Sys2Proof.Machine

/-- An order whose body is one clip number (R79, R81, R82, R83). -/
def clipOrder (act : Nat → State → OrderResult) (body : List Payload) (s : State) : OrderResult :=
  match body with
  | [clip] =>
    match fieldBelow 512 clip with
    | none => .refuse .badField s
    | some c => act c.val s
  | _ => .refuse .badLength s

/-- OPEN CLIP (R79). -/
def openClip (c : Nat) (s : State) : OrderResult :=
  if (s.clip c).state = .free then
    .done (s.setClip c { Clip.freed with state := .filling, filler := some .management })
  else .refuse .wrongState s

/-- OPEN_CLIP: order code 13 is taken (R79). -/
def execOpenClip (seq : BitVec 8) (body : List Payload) (s : State) : Host.Outcome State Fault Refusal :=
  .next (whenLocked (takeChange 13 seq (clipOrder openClip body)) s)

/-- The clip is FILLING with filler management (R80, R81). -/
def Clip.managed (v : Clip) : Bool := v.state == .filling && v.filler == some .management

/-- The number of blocks that hold `n` samples (R69). -/
def blocksFor (n : Nat) : Nat := (n + 255) / 256

/-- Samples written one after another to a clip (R80). A write without a block, which R80's test rules out, stops the
row of writes. -/
def writeSamples (c : Nat) : List Sample → State → State
  | [], s => s
  | x :: rest, s =>
    match s.writeClip c x with
    | none => s
    | some s' => writeSamples c rest s'

/-- APPEND CLIP (R80). -/
def orderAppendClip (body : List Payload) (s : State) : OrderResult :=
  match body with
  | clip :: x :: rest =>
    let samples := x :: rest
    if 63 < samples.length then .refuse .badLength s
    else
      match fieldBelow 512 clip with
      | none => .refuse .badField s
      | some c =>
        let v := s.clip c.val
        if !v.managed then .refuse .wrongState s
        else if s.freeBlocks.length < blocksFor (v.length + samples.length) - blocksFor v.length then
          .refuse .storeFull s
        else .done (writeSamples c.val samples s)
  | _ => .refuse .badLength s

/-- APPEND_CLIP: order code 14 is taken (R80). -/
def execAppendClip (seq : BitVec 8) (body : List Payload) (s : State) : Host.Outcome State Fault Refusal :=
  .next (whenLocked (takeChange 14 seq (orderAppendClip body)) s)

/-- CLOSE CLIP (R81). -/
def closeClip (c : Nat) (s : State) : OrderResult :=
  let v := s.clip c
  if !v.managed then .refuse .wrongState s
  else if v.length = 0 then .refuse .emptyClip s
  else .done (s.setClip c { v with state := .ready, filler := none, short := false })

/-- CLOSE_CLIP: order code 15 is taken (R81). -/
def execCloseClip (seq : BitVec 8) (body : List Payload) (s : State) : Host.Outcome State Fault Refusal :=
  .next (whenLocked (takeChange 15 seq (clipOrder closeClip body)) s)

/-- DELETE CLIP, by the clip's state (R82). -/
def deleteClip (c : Nat) (s : State) : OrderResult :=
  let v := s.clip c
  match v.state with
  | .free => .refuse .notFound s
  | .reserved => .refuse .unitBusy s
  | .filling => if v.filler = some .management then .done (s.freeClip c) else .refuse .unitBusy s
  | .ready =>
    if v.uses = 0 then .done (s.freeClip c)
    else { status := .deferred, data := [], st := s.setClip c { v with state := .doomed }, events := [] }
  | .doomed => { status := .deferred, data := [], st := s, events := [] }

/-- DELETE_CLIP: order code 16 is taken (R82). -/
def execDeleteClip (seq : BitVec 8) (body : List Payload) (s : State) : Host.Outcome State Fault Refusal :=
  .next (whenLocked (takeChange 16 seq (clipOrder deleteClip body)) s)

/-- The data of READ CLIP (R83). -/
def Clip.words (v : Clip) : List Nat :=
  [v.state.code, v.length, v.uses, fillerCode v.filler, flagCode v.short, v.chain.length] ++ v.chain.take 32

/-- READ CLIP (R83). -/
def readClip (c : Nat) (s : State) : OrderResult := .read (s.clip c).words s

/-- READ_CLIP: order code 17 is taken (R83). -/
def execReadClip (seq : BitVec 8) (body : List Payload) (s : State) : Host.Outcome State Fault Refusal :=
  .next (whenLocked (takeRead 17 seq (clipOrder readClip body)) s)

end Sys2Proof.Machine
end

