-- ==== Sys2Proof/Machine/CueOrders.lean ====
section
/-! DEFINITION. The orders that reach the Trigger Unit. -/

namespace Sys2Proof.Machine

/-- The Cue Map with one entry replaced in its place (R107). -/
def replaceEntry (e : CueMapEntry) (map : List CueMapEntry) : List CueMapEntry :=
  map.map fun old => if old.cue = e.cue then e else old

/-- MAP CUE (R107). -/
def orderMapCue (body : List Payload) (s : State) : OrderResult :=
  match body with
  | [cue, lane, record, policy] =>
    match cueField cue, fieldBelow 8 lane, fieldBelow 256 record, policyField policy with
    | some c, some i, some r, some p =>
      let e : CueMapEntry := { cue := c, lane := i, record := r, policy := p }
      if (s.mapped c).isSome then .done { s with cueMap := replaceEntry e s.cueMap }
      else if s.cueMap.length < 64 then .done { s with cueMap := s.cueMap ++ [e] }
      else .refuse .mapFull s
    | _, _, _, _ => .refuse .badField s
  | _ => .refuse .badLength s

/-- MAP_CUE: order code 6 is taken (R107). -/
def execMapCue (seq : BitVec 8) (body : List Payload) (s : State) : Host.Outcome State Fault Refusal :=
  .next (whenLocked (takeChange 6 seq (orderMapCue body)) s)

/-- UNMAP CUE (R108). -/
def orderUnmapCue (body : List Payload) (s : State) : OrderResult :=
  match body with
  | [cue] =>
    match cueField cue with
    | none => .refuse .badField s
    | some c =>
      if (s.mapped c).isNone then .refuse .notFound s
      else .done { s with cueMap := s.cueMap.filter fun e => e.cue != c }
  | _ => .refuse .badLength s

/-- UNMAP_CUE: order code 7 is taken (R108). -/
def execUnmapCue (seq : BitVec 8) (body : List Payload) (s : State) : Host.Outcome State Fault Refusal :=
  .next (whenLocked (takeChange 7 seq (orderUnmapCue body)) s)

/-- A Cue Map entry placed in a list in ascending cue number. -/
def insertByCue (e : CueMapEntry) : List CueMapEntry → List CueMapEntry
  | [] => [e]
  | h :: rest => if e.cue < h.cue then e :: h :: rest else h :: insertByCue e rest

/-- The Cue Map in ascending cue number (R109). -/
def sortByCue (map : List CueMapEntry) : List CueMapEntry := map.foldr insertByCue []

/-- The two words of a listed entry (R109). -/
def CueMapEntry.words (e : CueMapEntry) : List Nat :=
  [e.cue.val, e.record.val + 256 * e.lane.val + 2048 * e.policy.code]

/-- The data of READ CUE MAP from a starting cue number (R109). -/
def cueMapData (start : Fin 4096) (s : State) : List Nat :=
  let listed := ((sortByCue s.cueMap).filter fun e => start ≤ e.cue).take 30
  [s.cueMap.length, listed.length] ++ listed.flatMap CueMapEntry.words

/-- READ CUE MAP (R109). -/
def orderReadCueMap (body : List Payload) (s : State) : OrderResult :=
  match body with
  | [] => .read (cueMapData 1 s) s
  | [start] =>
    match cueField start with
    | none => .refuse .badField s
    | some c => .read (cueMapData c s) s
  | _ => .refuse .badLength s

/-- READ_CUE_MAP: order code 8 is taken (R109). -/
def execReadCueMap (seq : BitVec 8) (body : List Payload) (s : State) : Host.Outcome State Fault Refusal :=
  .next (whenLocked (takeRead 8 seq (orderReadCueMap body)) s)

/-- TAKE (R117). -/
def orderTake (body : List Payload) (s : State) : OrderResult :=
  match body with
  | [lane, record, delay, policy] =>
    match fieldBelow 8 lane, fieldBelow 256 record, fieldBelow 4096 delay, policyField policy with
    | some i, some r, some d, some p =>
      if s.triggersFull then .refuse .queueFull s else .done (s.enterTrigger d (.take i r p))
    | _, _, _, _ => .refuse .badField s
  | _ => .refuse .badLength s

/-- TAKE: order code 9 is taken (R117). -/
def execTake (seq : BitVec 8) (body : List Payload) (s : State) : Host.Outcome State Fault Refusal :=
  .next (whenLocked (takeChange 9 seq (orderTake body)) s)

/-- The three words of a Trigger Queue entry at the arrival of count `now` (R124). -/
def TriggerEntry.words (now : FrameCount) (e : TriggerEntry) : List Nat :=
  (e.due - now).toNat ::
    match e.kind with
    | .cue n => [n.val, 0]
    | .take lane record policy => [4096 + 8 * policy.code + lane.val, record.val]

/-- READ TRIGGERS (R124). -/
def orderReadTriggers (body : List Payload) (s : State) : OrderResult :=
  match body with
  | [] => .read (s.triggers.length :: s.triggers.flatMap (TriggerEntry.words s.frameCount)) s
  | _ :: _ => .refuse .badLength s

/-- READ_TRIGGERS: order code 22 is taken (R124). -/
def execReadTriggers (seq : BitVec 8) (body : List Payload) (s : State) : Host.Outcome State Fault Refusal :=
  .next (whenLocked (takeRead 22 seq (orderReadTriggers body)) s)

end Sys2Proof.Machine
end

