-- ==== Sys2Proof/Machine/LaneOrders.lean ====
section
/-! DEFINITION. The orders that reach one lane. -/

namespace Sys2Proof.Machine

/-- A RELEASE or ABORT is placed in a busy lane's waiting order; an IDLE lane refuses it (R40, R175, R176). -/
def orderWaiting (order : WaitingOrder) (body : List Payload) (s : State) : OrderResult :=
  match body with
  | [lane] =>
    match fieldBelow 8 lane with
    | none => .refuse .badField s
    | some i =>
      if (s.lane i).busy then .done (s.setLane i { s.lane i with waiting := some order })
      else .refuse .wrongState s
  | _ => .refuse .badLength s

/-- RELEASE: order code 10 is taken (R175). -/
def execRelease (seq : BitVec 8) (body : List Payload) (s : State) : Host.Outcome State Fault Refusal :=
  .next (whenLocked (takeChange 10 seq (orderWaiting .release body)) s)

/-- ABORT: order code 11 is taken (R176). -/
def execAbort (seq : BitVec 8) (body : List Payload) (s : State) : Host.Outcome State Fault Refusal :=
  .next (whenLocked (takeChange 11 seq (orderWaiting .abort body)) s)

/-- The data of READ LANE (R48, R178, R179, Table 9-5). -/
def Lane.words (l : Lane) : List Nat :=
  [l.phase.code, indexOr256 l.source] ++ twoWords l.k ++ [l.effLen] ++ twoWords l.total
    ++ [l.mark.code, indexOr256 (l.pending.map PendingTrigger.record),
      (l.pending.map fun p => p.kind.code).getD 0, l.slots.length]
    ++ l.slots.map Fin.val
    ++ match l.copy with
      | none => []
      | some r => r.words

/-- READ LANE (R178). -/
def orderReadLane (body : List Payload) (s : State) : OrderResult :=
  match body with
  | [lane] =>
    match fieldBelow 8 lane with
    | none => .refuse .badField s
    | some i => .read (s.lane i).words s
  | _ => .refuse .badLength s

/-- READ_LANE: order code 12 is taken (R178). -/
def execReadLane (seq : BitVec 8) (body : List Payload) (s : State) : Host.Outcome State Fault Refusal :=
  .next (whenLocked (takeRead 12 seq (orderReadLane body)) s)

end Sys2Proof.Machine
end

