-- ==== Sys2Proof/Machine/LawOrders.lean ====
section
/-! DEFINITION. LOAD LAW and READ LAW. -/

namespace Sys2Proof.Machine

/-- LOAD LAW (R51). -/
def orderLoadLaw (body : List Payload) (s : State) : OrderResult :=
  if body.length ≠ 64 then .refuse .badLength s
  else if body.any fun w => 65536 < w.toNat then .refuse .badField s
  else .done { s with law := Vector.ofFn fun i => (body.getD i.val 0).toNat }

/-- LOAD_LAW: order code 20 is taken (R51). -/
def execLoadLaw (seq : BitVec 8) (body : List Payload) (s : State) : Host.Outcome State Fault Refusal :=
  .next (whenLocked (takeChange 20 seq (orderLoadLaw body)) s)

/-- READ LAW (R52). -/
def orderReadLaw (body : List Payload) (s : State) : OrderResult :=
  match body with
  | [] => .read s.law.toList s
  | _ :: _ => .refuse .badLength s

/-- READ_LAW: order code 21 is taken (R52). -/
def execReadLaw (seq : BitVec 8) (body : List Payload) (s : State) : Host.Outcome State Fault Refusal :=
  .next (whenLocked (takeRead 21 seq (orderReadLaw body)) s)

end Sys2Proof.Machine
end

