-- ==== Sys2Proof/Machine/RecordOrders.lean ====
section
/-! DEFINITION. The orders that reach the Splice Table. -/

namespace Sys2Proof.Machine

/-- The voices of a LOAD RECORD body: slot and clip for each (R13, R14). -/
def voiceFields : List Payload → Option (List Voice)
  | [] => some []
  | [_] => none
  | slot :: clip :: rest =>
    match fieldBelow 16 slot, fieldBelow 512 clip, voiceFields rest with
    | some j, some c, some vs => some ({ slot := j, clip := c } :: vs)
    | _, _, _ => none

/-- The end cue fields of a LOAD RECORD body: all three are tested, and cue number 0 stands for absent (R14). -/
def endCueFields (cue offset forward : Payload) : Option (Option EndCue) :=
  match fieldBelow 4096 cue, fieldBelow 4096 offset, flagField forward with
  | some c, some o, some f => some (if c.val = 0 then none else some { cue := c, offset := o, forward := f })
  | _, _, _ => none

/-- The record a LOAD RECORD body carries, without its index; none when a condition of R14 fails. -/
def recordFields (length start repeats rIn rOut under next reportStart reportEnd tag cue offset forward : Payload)
    (voices : List Payload) : Option Record := do
  let repeats ← fieldBelow 256 repeats
  let rIn ← fieldBelow 1024 rIn
  let rOut ← fieldBelow 1024 rOut
  let under ← fieldBelow 64 under
  let next ← linkField next
  let reportStart ← flagField reportStart
  let reportEnd ← flagField reportEnd
  let tag ← fieldBelow 256 tag
  let endCue ← endCueFields cue offset forward
  let voices ← voiceFields voices
  if length.toNat ≠ 0 ∧ (voices.map Voice.slot).Nodup then
    some { length := length.toNat, start := start.toNat, repeats, rIn, rOut, under, next, reportStart, reportEnd, tag,
           endCue, voices }
  else none

/-- LOAD RECORD: the shape of the body, then the fields, then the table (R13, R14). -/
def orderLoadRecord (body : List Payload) (s : State) : OrderResult :=
  match body with
  | index :: length :: start :: repeats :: rIn :: rOut :: under :: next :: reportStart :: reportEnd :: tag :: cue
      :: offset :: forward :: count :: voices =>
    if 8 < voices.length then .refuse .badLength s
    else if 4 < count.toNat then .refuse .badField s
    else if voices.length ≠ 2 * count.toNat then .refuse .badLength s
    else
      match fieldBelow 256 index,
        recordFields length start repeats rIn rOut under next reportStart reportEnd tag cue offset forward voices with
      | some i, some r => .done (s.setRecord i.val r)
      | _, _ => .refuse .badField s
  | _ => .refuse .badLength s

/-- LOAD_RECORD: order code 3 is taken (R14). -/
def execLoadRecord (seq : BitVec 8) (body : List Payload) (s : State) : Host.Outcome State Fault Refusal :=
  .next (whenLocked (takeChange 3 seq (orderLoadRecord body)) s)

/-- ERASE RECORD (R15, R174). -/
def orderEraseRecord (body : List Payload) (s : State) : OrderResult :=
  match body with
  | [index] =>
    match fieldBelow 256 index with
    | none => .refuse .badField s
    | some i => if (s.record i.val).isNone then .refuse .notFound s else .done (s.eraseRecord i.val)
  | _ => .refuse .badLength s

/-- ERASE_RECORD: order code 4 is taken (R15). -/
def execEraseRecord (seq : BitVec 8) (body : List Payload) (s : State) : Host.Outcome State Fault Refusal :=
  .next (whenLocked (takeChange 4 seq (orderEraseRecord body)) s)

/-- READ RECORD (R16, R174). -/
def orderReadRecord (body : List Payload) (s : State) : OrderResult :=
  match body with
  | [index] =>
    match fieldBelow 256 index with
    | none => .refuse .badField s
    | some i =>
      match s.record i.val with
      | none => .read [0] s
      | some r => .read (1 :: r.words) s
  | _ => .refuse .badLength s

/-- READ_RECORD: order code 5 is taken (R16). -/
def execReadRecord (seq : BitVec 8) (body : List Payload) (s : State) : Host.Outcome State Fault Refusal :=
  .next (whenLocked (takeRead 5 seq (orderReadRecord body)) s)

end Sys2Proof.Machine
end

