-- ==== Sys2Proof/Machine/StationOrders.lean ====
section
/-! DEFINITION. READ STATION, CLEAR STATION and orders of unknown code. -/

namespace Sys2Proof.Machine

/-- READ STATION (R164, R165, Table 9-3). -/
def orderReadStation (body : List Payload) (s : State) : OrderResult :=
  match body with
  | [] =>
    .read ([s.station.toNat, s.lock.code] ++ twoWords s.frameCount.toNat
      ++ [s.freeBlocks.length, s.triggers.length, s.reports.length, s.lost]
      ++ (List.finRange 8).map (fun i => (s.lane i).phase.code)
      ++ (List.finRange 2).map (fun u => (s.unit u).state.code)
      ++ [match s.lastTaken with | some m => m.seq.toNat | none => 256]) s
  | _ :: _ => .refuse .badLength s

/-- READ_STATION: order code 1 is taken (R164). -/
def execReadStation (seq : BitVec 8) (body : List Payload) (s : State) : Host.Outcome State Fault Refusal :=
  .next (whenLocked (takeRead 1 seq (orderReadStation body)) s)

/-! CLEAR STATION (R166 to R173) -/

/-- Scope LANES: every busy lane abandoned with reason CLEARED, the DOOMED clips so emptied freed, the Trigger Queue and
the Cue Out list emptied (R45, R167). -/
def clearLanes (s : State) : State × List Event :=
  let w := abandonLanes .cleared s
  let (freed, events) := w.st.freeDoomed
  (freed.flushTriggers, w.reports ++ events)

/-- The table changes of scope TABLES: Splice Table and Cue Map emptied, the default fade law restored (R168). -/
def clearTables (s : State) : State := { s with table := [], cueMap := [], law := State.defaultLaw }

/-- The store changes of scope STORE: both capture units cancelled, every clip FREE, the Free Block List rebuilt
(R85, R99, R169). -/
def clearStore (s : State) : State × List Event :=
  let (cancelled, events) := eachUnit (cancelUnit .cleared) s
  ({ cancelled with clips := [], freeBlocks := List.range 4096 }, events)

/-- The effect of CLEAR STATION with scope LANES (R167). -/
def clearScopeLanes (s : State) : OrderResult :=
  { status := .done, data := [], st := (clearLanes s).1, events := (clearLanes s).2 }

/-- The effect of CLEAR STATION with scope TABLES (R168). -/
def clearScopeTables (s : State) : OrderResult :=
  { status := .done, data := [], st := clearTables (clearLanes s).1, events := (clearLanes s).2 }

/-- The effect of CLEAR STATION with scope STORE (R169). -/
def clearScopeStore (s : State) : OrderResult :=
  let (stored, events) := clearStore (clearLanes s).1
  { status := .done, data := [], st := stored, events := (clearLanes s).2 ++ events }

/-- The effect of CLEAR STATION with scope ALL (R170). -/
def clearScopeAll (s : State) : OrderResult :=
  let (stored, events) := clearStore (clearTables (clearLanes s).1)
  { status := .done, data := [], st := stored, events := (clearLanes s).2 ++ events }

/-- CLEAR STATION: its length and field tests, then the effect of its scope (R166). -/
def orderClearStation (body : List Payload) (s : State) : OrderResult :=
  match body with
  | [scope] =>
    match scope.toNat with
    | 0 => clearScopeLanes s
    | 1 => clearScopeTables s
    | 2 => clearScopeStore s
    | 3 => clearScopeAll s
    | _ => .refuse .badField s
  | _ => .refuse .badLength s

/-- CLEAR_STATION_LANES: order code 2 is taken, its scope word 0 (R167). -/
def execClearStationLanes (seq : BitVec 8) (body : List Payload) (s : State) : Host.Outcome State Fault Refusal :=
  .next (whenLocked (takeChange 2 seq (orderClearStation body)) s)

/-- CLEAR_STATION_TABLES: order code 2 is taken, its scope word 1 (R168). -/
def execClearStationTables (seq : BitVec 8) (body : List Payload) (s : State) : Host.Outcome State Fault Refusal :=
  .next (whenLocked (takeChange 2 seq (orderClearStation body)) s)

/-- CLEAR_STATION_STORE: order code 2 is taken, its scope word 2 (R169). -/
def execClearStationStore (seq : BitVec 8) (body : List Payload) (s : State) : Host.Outcome State Fault Refusal :=
  .next (whenLocked (takeChange 2 seq (orderClearStation body)) s)

/-- CLEAR_STATION_ALL: order code 2 is taken, its scope word 3 (R170). -/
def execClearStationAll (seq : BitVec 8) (body : List Payload) (s : State) : Host.Outcome State Fault Refusal :=
  .next (whenLocked (takeChange 2 seq (orderClearStation body)) s)

end Sys2Proof.Machine
end

