-- ==== Sys2Proof/Machine/OrderUnit.lean ====
section
/-! DEFINITION. The Order Unit: assembly of order words, the deadline, and the taking of a complete order by its code. -/

namespace Sys2Proof.Machine

/-- What the order of a code executes with a body; none for a code that names no order (R154, Table 9-1). -/
def executeOrder (code : Nat) (body : List Payload) : Option (State → OrderResult) :=
  match code with
  | 1 => some (orderReadStation body)
  | 2 => some (orderClearStation body)
  | 3 => some (orderLoadRecord body)
  | 4 => some (orderEraseRecord body)
  | 5 => some (orderReadRecord body)
  | 6 => some (orderMapCue body)
  | 7 => some (orderUnmapCue body)
  | 8 => some (orderReadCueMap body)
  | 9 => some (orderTake body)
  | 10 => some (orderWaiting .release body)
  | 11 => some (orderWaiting .abort body)
  | 12 => some (orderReadLane body)
  | 13 => some (clipOrder openClip body)
  | 14 => some (orderAppendClip body)
  | 15 => some (clipOrder closeClip body)
  | 16 => some (clipOrder deleteClip body)
  | 17 => some (clipOrder readClip body)
  | 18 => some (orderCapture body)
  | 19 => some (orderCancelCapture body)
  | 20 => some (orderLoadLaw body)
  | 21 => some (orderReadLaw body)
  | 22 => some (orderReadTriggers body)
  | _ => none

/-- The codes of the READ orders (R154). -/
def isReadOrder (code : Nat) : Bool := [1, 5, 8, 12, 17, 21, 22].contains code

/-- A complete order is taken by its code (R152, R154). -/
def takeOrder (code seq : BitVec 8) (body : List Payload) (s : State) : State :=
  match executeOrder code.toNat body with
  | none => takeUnknown code seq s
  | some execute => if isReadOrder code.toNat then takeRead code seq execute s else takeChange code seq execute s

/-- UNKNOWN_ORDER: an order of code 0 or 23 to 255 is taken. A code of 1 to 22, which no UNKNOWN_ORDER carries, is the
order of that code (R154). -/
def execUnknownOrder (code seq : BitVec 8) (body : List Payload) (s : State) : Host.Outcome State Fault Refusal :=
  .next (whenLocked (takeOrder code seq body) s)

/-! The assembly (R144 to R148) -/

/-- What an order word leaves: the state, the ORDER DISCARDED reports and the order it completes, if any. -/
structure WordResult where
  st : State
  events : List Event
  complete : Option Assembly
  deriving DecidableEq, Repr

/-- An ORDER HEAD word (R144). -/
def orderHead (address : BitVec 5) (p : Payload) (s : State) : WordResult :=
  let interrupted := match s.assembly with
    | some a => [Event.orderDiscarded a.seq .interrupted]
    | none => []
  if 64 < bodyLength p then
    { st := { s with assembly := none }, events := interrupted ++ [.orderDiscarded (headSeq p) .tooLong], complete := none }
  else
    let fresh : Assembly :=
      { address := address, code := headCode p, seq := headSeq p, declared := bodyLength p, body := [],
        sum := addToSum 0 p, start := s.frameCount }
    { st := { s with assembly := some fresh }, events := interrupted, complete := none }

/-- An ORDER BODY word (R145). -/
def orderBody (address : BitVec 5) (p : Payload) (s : State) : WordResult :=
  match s.assembly with
  | none => { st := s, events := [], complete := none }
  | some a =>
    if a.address ≠ address then { st := s, events := [], complete := none }
    else if a.declared ≤ a.body.length then
      { st := { s with assembly := none }, events := [.orderDiscarded a.seq .badLength], complete := none }
    else
      let grown : Assembly := { a with body := a.body ++ [p], sum := addToSum a.sum p }
      { st := { s with assembly := some grown }, events := [], complete := none }

/-- An ORDER END word (R146). -/
def orderEnd (address : BitVec 5) (p : Payload) (s : State) : WordResult :=
  match s.assembly with
  | none => { st := s, events := [], complete := none }
  | some a =>
    if a.address ≠ address then { st := s, events := [], complete := none }
    else
      let closed : State := { s with assembly := none }
      if a.body.length ≠ a.declared ∨ bodyLength p ≠ a.declared then
        { st := closed, events := [.orderDiscarded a.seq .badLength], complete := none }
      else if endCheck p ≠ a.sum then
        { st := closed, events := [.orderDiscarded a.seq .check], complete := none }
      else { st := closed, events := [], complete := some a }

/-- The deadline: an order still in assembly is discarded with reason TIMEOUT (R148). -/
def checkDeadline (s : State) : State × List Event :=
  match s.assembly with
  | none => (s, [])
  | some a =>
    if s.frameCount = a.start + 2048 then ({ s with assembly := none }, [.orderDiscarded a.seq .timeout]) else (s, [])

/-- Link loss discards an order in assembly with reason LINK LOST (R150). -/
def loseAssembly (s : State) : State × List Event :=
  match s.assembly with
  | none => (s, [])
  | some a => ({ s with assembly := none }, [.orderDiscarded a.seq .linkLost])

/-- The order word of an arrival, if the router handed one to the Order Unit (R143). -/
def handleOrderWord (w : Option ControlWord) (s : State) : WordResult :=
  match w with
  | none => { st := s, events := [], complete := none }
  | some w =>
    match wordKind w with
    | .orderHead => orderHead (wordStation w) (wordPayload w) s
    | .orderBody => orderBody (wordStation w) (wordPayload w) s
    | .orderEnd => orderEnd (wordStation w) (wordPayload w) s
    | _ => { st := s, events := [], complete := none }

/-- The Order Unit's part of an arrival: the deadline, then the order word (R148). -/
def orderUnitWork (w : Option ControlWord) (s : State) : WordResult :=
  let (checked, timeouts) := checkDeadline s
  let r := handleOrderWord w checked
  { r with events := timeouts ++ r.events }

/-- A complete order is taken after the arrival's work (R153). -/
def takeComplete (a : Option Assembly) (s : State) : State :=
  match a with
  | none => s
  | some a => takeOrder a.code a.seq a.body s

end Sys2Proof.Machine
end

