-- ==== Sys2Proof/Machine/Router.lean ====
section
/-! DEFINITION. The Control Slot Router: classification of a received control word and the output-slot arbiter. -/

namespace Sys2Proof.Machine

/-- The control word is one to travel on (Table 7-2, R102, R137 to R139). -/
def passesOn (station : BitVec 5) (w : ControlWord) : Bool :=
  match wordKind w with
  | .idle => false
  | .cue => (cueNumber (wordPayload w)).val = 0 || wordStation w != station
  | .orderHead | .orderBody | .orderEnd => wordStation w != station
  | .reportHead | .reportBody | .reportEnd => true

/-- The cue number and offset of a cue word that is acted on (R102). -/
def actedCue (station : BitVec 5) (w : ControlWord) : List (Fin 4096 × Fin 4096) :=
  match wordKind w with
  | .cue =>
    if (cueNumber (wordPayload w)).val ≠ 0 ∧ (wordStation w = 0 ∨ wordStation w = station) then
      [(cueNumber (wordPayload w), cueOffset (wordPayload w))]
    else []
  | _ => []

/-- An order word that the router hands to the Order Unit: its station field is this station's number or 31
(R137, R138). -/
def handedOrderWord (station : BitVec 5) (w : ControlWord) : Option ControlWord :=
  match wordKind w with
  | .orderHead | .orderBody | .orderEnd =>
    if wordStation w = station ∨ wordStation w = 31 then some w else none
  | _ => none

/-- The contender to which the arbiter gives the outgoing control slot (R193). -/
inductive SlotChoice where
  | pass (w : ControlWord)
  | cueOut (e : CueOutEntry)
  | report (w : ControlWord)
  | idle
  deriving DecidableEq, Repr

/-- What the Cue Out list and the Report Queue get a free slot for (R193, precedence 2 to 4). -/
def freeSlotChoice (s : State) : SlotChoice :=
  match s.cueOut with
  | e :: _ => .cueOut e
  | [] =>
    match s.offeredReportWord with
    | some w => .report w
    | none => .idle

/-- The arbiter's choice for an arrival, from the lists as they stand at its start; the word of a concealed frame is
absent (R193). -/
def arbitrate (s : State) (w : Option ControlWord) : SlotChoice :=
  match w with
  | some w => if passesOn s.station w then .pass w else freeSlotChoice s
  | none => freeSlotChoice s

/-- The control word that leaves (R120, R193). -/
def SlotChoice.word (now : FrameCount) : SlotChoice → ControlWord
  | .pass w => w
  | .cueOut e => e.word now
  | .report w => w
  | .idle => idleWord

/-- The Cue Out entry that was given the slot leaves the list; a report word that was given it advances the word
position (R120, R191). The head report whose END word leaves is dropped apart from this (R187). -/
def SlotChoice.emit (c : SlotChoice) (s : State) : State :=
  match c with
  | .cueOut _ => { s with cueOut := s.cueOut.tail }
  | .report _ => { s with wordPos := s.wordPos + 1 }
  | _ => s

/-- The choice sends the END word of the head report (R191). -/
def SlotChoice.endsReport (c : SlotChoice) (s : State) : Bool :=
  match c with
  | .report _ => s.offersLastWord
  | _ => false

end Sys2Proof.Machine
end

