-- ==== Sys2Proof/Machine/Arrival.lean ====
section
/-! DEFINITION. A frame arrival while LOCKED: the frame test, concealment, link loss, and the frame work of every block in
the manual's order. -/

namespace Sys2Proof.Machine

/-! The frame work of the lanes, the store and the capture units -/

/-- The work of an arrival under way: the lanes' work and the reports of the two capture units (R187). -/
structure ArrivalWork where
  lanes : LaneWork
  unitEvents : Vector (List Event) 2
  deriving DecidableEq, Repr

/-- What an arrival has fixed before its frame work: its number for the free values, its programme samples, the
triggers delivered to lanes, and which units get their awaited cue. -/
structure ArrivalPlan where
  number : Nat
  programme : SampleSet
  triggers : List LaneTrigger
  delivered : Vector Bool 2
  deriving DecidableEq, Repr

/-- The unit has frame work to do at this arrival (R93). -/
def unitActive (p : ArrivalPlan) (s : State) (u : Fin 2) : Bool :=
  p.delivered[u] || (s.unit u).state == .recording

/-- The point of the arrival at which a unit does its work (R28, R67): free, except that the unit with number 1 does
not claim a block before unit 0 does (R66). `s` is the state at the start of the frame work. -/
def unitTurn (p : ArrivalPlan) (s : State) (u : Fin 2) : Fin 10 :=
  if u = 1 ∧ unitActive p s 0 ∧ needsBlock p.delivered[0] (s.unit 0) ∧ needsBlock p.delivered[1] (s.unit 1) then
    max (Config.captureTurn p.number 0) (Config.captureTurn p.number 1)
  else Config.captureTurn p.number u

/-- The unit does its frame work if this point of the arrival is its turn. -/
def unitAt (p : ArrivalPlan) (s0 : State) (turn : Fin 10) (u : Fin 2) (w : ArrivalWork) : ArrivalWork :=
  if unitActive p s0 u && unitTurn p s0 u == turn then
    let (worked, es) := unitWork p.programme p.delivered[u] u w.lanes.st
    { lanes := { w.lanes with st := worked }, unitEvents := w.unitEvents.set u es }
  else w

/-- The units whose turn it is, unit 0 first (R66). -/
def unitsAt (p : ArrivalPlan) (s0 : State) (turn : Fin 10) (w : ArrivalWork) : ArrivalWork :=
  unitAt p s0 turn 1 (unitAt p s0 turn 0 w)

/-- One lane's steps 1 to 4, the capture units whose turn comes just before it having done their work (R22, R23, R28). -/
def laneAt (p : ArrivalPlan) (s0 : State) (w : ArrivalWork) (i : Fin 8) : ArrivalWork :=
  let w' := unitsAt p s0 (i.castLE (by decide)) w
  { w' with lanes := laneSteps p.triggers i w'.lanes }

/-- The lanes in ascending lane number, and the capture units before, between and after them (R22, R28). -/
def lanesWork (p : ArrivalPlan) (s : State) : ArrivalWork :=
  unitsAt p s 8 ((List.finRange 8).foldl (laneAt p s) { lanes := LaneWork.start s, unitEvents := Vector.replicate 2 [] })

/-- The DOOMED clips freed once the lanes' work is complete, with their reports, and then the capture units whose turn
comes after that return (R67, R76). -/
def returnsWork (p : ArrivalPlan) (s : State) : ArrivalWork × List Event :=
  let w := lanesWork p s
  let (freed, events) := w.lanes.st.freeDoomed
  (unitsAt p s 9 { w with lanes := { w.lanes with st := freed } }, events)

/-! The Trigger Unit at an arrival -/

/-- The units' answer to the admission with number `j` of the arrival: a unit ARMED now, or one that the arrival has
started and that had not yet left ARMED when this admission was tested (R111, R112). `s0` is the state at the start of
the frame work. -/
def awaitedAt (p : ArrivalPlan) (s0 s : State) (j : Nat) (cue : Fin 4096) : Bool :=
  (List.finRange 2).any fun u =>
    (s.unit u).awaits cue
      || ((s0.unit u).awaits cue && p.delivered[u] && decide (j < Config.admissionsBeforeStart p.number u))

/-! The whole arrival -/

/-- The reports of an arrival are offered; when the END word of the head report leaves at this arrival, the free value
says after how many offers it leaves (R187). -/
def offerAndDepart (number : Nat) (departs : Bool) (es : List Event) (s : State) : State :=
  if departs then
    match es with
    | [] => s.dropHeadReport
    | es =>
      let n := Config.offersBeforeDeparture number
      (s.offerEvents (es.take n)).dropHeadReport.offerEvents (es.drop n)
  else s.offerEvents es

/-- The plan of an arrival: what falls due and to whom it is delivered (R114, R115). `s` is the state once the frame has
been received. -/
def arrivalPlan (s : State) (programme : SampleSet) : ArrivalPlan where
  number := s.choices
  programme := programme
  triggers := s.dueEntries.flatMap (laneDeliveries s)
  delivered := Vector.ofFn fun u => deliveredTo s.dueEntries (s.unit u)

/-- The frame work of every block at an arrival that keeps the lock, and the outgoing frame; `s` is the state once the
frame has been received, `programme` its samples and `word` its control word, absent when concealed
(R23, R93, R114, R134, R136, R187, R193). The order completed at this arrival, if any, is still to be taken. -/
def frameWork (programme : SampleSet) (word : Option ControlWord) (s : State) : State × Option Assembly :=
  let choice := arbitrate s word
  let departs := choice.endsReport s
  let plan := arrivalPlan s programme
  let started := choice.emit s.dropDue
  let (worked, freedEvents) := returnsWork plan started
  let mixed := setPhases worked.lanes.st
  let samples := mixFrame mixed programme
  let cueWord := match word with
    | some w => actedCue s.station w
    | none => []
  let (admitted, triggerEvents) := admitAll (awaitedAt plan started mixed) worked.lanes.endCues cueWord mixed
  let orders := orderUnitWork (word.bind (handedOrderWord s.station)) admitted
  let events := worked.lanes.reports ++ freedEvents ++ worked.unitEvents[0] ++ worked.unitEvents[1] ++ triggerEvents
    ++ orders.events
  let reported := offerAndDepart plan.number departs events orders.st
  ({ reported with
      lineOut := composeFrame samples (choice.word s.frameCount)
      choices := s.choices + 1 },
    orders.complete)

/-- Every block applies its loss rule in place of its frame work (R131, R190); `s` is the state once the receiver has
left LOCKED. -/
def loseLink (s : State) : State :=
  let w := abandonLanes .linkLost s
  let (freed, freedEvents) := w.st.freeDoomed
  let (stopped, unitEvents) := eachUnit loseUnit freed
  let (discarded, orderEvents) := loseAssembly stopped.flushTriggers
  { discarded.offerEvents ([.linkLost s.frameCount] ++ w.reports ++ freedEvents ++ unitEvents ++ orderEvents) with
    wordPos := 0 }

/-- A good frame with these samples and this control word is received while LOCKED; an order that its END word completes
is taken once the frame work is done (R129, R130, R134, R153). -/
def arriveGood (samples : SampleSet) (word : ControlWord) (s : State) : State :=
  let (worked, order) := frameWork samples (some word)
    { s with frameCount := s.frameCount + 1, nextBit := s.nextBit + 448, badRun := 0, lastGood := samples }
  takeComplete order worked

/-- A frame received while LOCKED (R129, R130, R134, R135). -/
def arriveLocked (line : LineFrame) (s : State) : State :=
  let f := frameOfLine line
  let counted : State := { s with frameCount := s.frameCount + 1, nextBit := s.nextBit + 448 }
  if f.good then arriveGood f.samples f.control s
  else if s.badRun + 1 < 3 then
    (frameWork s.lastGood none { counted with badRun := s.badRun + 1 }).1
  else
    loseLink
      { counted with
        lock := .search, confirm := 0, badRun := 0, nextBit := s.nextBit + 1, waitingBits := 447, lineOut := line }

/-- FRAME_ARRIVAL: a frame is received while LOCKED. While the receiver is not LOCKED the frame passes unchanged
(R130, R133). -/
def execFrameArrival (line : LineFrame) (s : State) : Host.Outcome State Fault Refusal :=
  if s.lock = .locked then .next (arriveLocked line s) else .next { s with lineOut := line }

end Sys2Proof.Machine
end

