-- ==== Sys2Proof/Machine/Events.lean ====
section
/-! DEFINITION. The rows of the table that name one event of a frame arrival, each as a command of its own. FRAME_ARRIVAL
makes all of them itself, through the same operations; a row makes its event alone, on the state as it stands, and changes
nothing when the event's condition does not hold. An event that the station can meet only within an arrival (the deadline,
an entry falling due, the end of a record, the last sample of a capture) happens when the advance of one frame brings it
about; the frame count itself is FRAME_ARRIVAL's to advance (log entry 5). A word of the station's own can leave only in the
frame composed at an arrival, so the two rows that send one are that whole arrival, of a frame whose slot is free (log entry
19). -/

namespace Sys2Proof.Machine

/-- The order in assembly is discarded with reason TIMEOUT when its deadline is the present frame count or the next (R148). -/
def meetDeadline (s : State) : State :=
  match s.assembly with
  | none => s
  | some a =>
    if s.frameCount = a.start + 2048 ∨ s.frameCount + 1 = a.start + 2048 then
      { s with assembly := none }.offerEvent (.orderDiscarded a.seq .timeout)
    else s

/-- TIMEOUT: the deadline of the order in assembly (R148). -/
def execTimeout (s : State) : Host.Outcome State Fault Refusal := .next (whenLocked meetDeadline s)

/-- A lane applies its waiting RELEASE at the present k, and the record ends when T is then k (R41). -/
def releaseLane (i : Fin 8) (s : State) : State :=
  if (s.lane i).waiting = some .release then
    finishLanes [] (endIfDue i (applyReleaseOrder i (LaneWork.start s)))
  else s

/-- APPLY_RELEASE (R41). -/
def execApplyRelease (i : Fin 8) (s : State) : Host.Outcome State Fault Refusal :=
  .next (whenLocked (releaseLane i) s)

/-- A lane applies its waiting ABORT (R42). -/
def abortLane (i : Fin 8) (s : State) : State :=
  if (s.lane i).waiting = some .abort then finishLanes [] (applyAbortOrder i (LaneWork.start s)) else s

/-- APPLY_ABORT (R42). -/
def execApplyAbort (i : Fin 8) (s : State) : Host.Outcome State Fault Refusal :=
  .next (whenLocked (abortLane i) s)

/-- The counter of a busy lane reaches T, now or by the advance of the next arrival, and its record ends at that arrival:
its end cue is given the due frame and the admission of that arrival's count (R9, R24, R29, R31, R118). -/
def reachEnd (i : Fin 8) (s : State) : State :=
  let l := s.lane i
  if l.busy && l.k == l.total then finishLanes [] (endRecord i (LaneWork.start s))
  else if l.busy && l.k + 1 == l.total then
    s.atNextCount fun arrived => finishLanes [] (endRecord i (advanceLane i (LaneWork.start arrived)))
  else s

/-- RECORD_END (R29). -/
def execRecordEnd (i : Fin 8) (s : State) : Host.Outcome State Fault Refusal :=
  .next (whenLocked (reachEnd i) s)

/-- A unit starts if its awaited cue is delivered (R92). -/
def startIf (delivered : Bool) (u : Fin 2) (s : State) : State × List Event :=
  if delivered then startUnit u s else (s, [])

/-- The entries that fall due at the frame count after the present one leave the Trigger Queue and are delivered: the
lanes apply their triggers in ascending lane number, and the units awaiting a cue start (R114 to R116). -/
def deliverDue (s : State) : State :=
  s.atNextCount fun arrived =>
    let plan := arrivalPlan arrived s.lastGood
    let (started, unitEvents) := eachUnit (fun u => startIf plan.delivered[u] u) arrived.dropDue
    finishLanes unitEvents
      ((List.finRange 8).foldl (fun w i => applyTriggers plan.triggers i w) (LaneWork.start started))

/-- TRIGGER_FALLS_DUE (R114). -/
def execTriggerFallsDue (s : State) : Host.Outcome State Fault Refusal := .next (whenLocked deliverDue s)

/-- The capture of a RECORDING unit completes whose samples written is the wanted length, or reaches it by the write of
one sample: that of its input slot in the last good sample set (R94, R95). -/
def completeUnit (u : Fin 2) (s : State) : State :=
  let v := s.unit u
  if v.state = .recording ∧ v.written = v.wanted then
    (completeCapture u s).1.offerEvents (completeCapture u s).2
  else if v.state = .recording ∧ v.written + 1 = v.wanted ∧ (v.written % 256 ≠ 0 ∨ s.freeBlocks ≠ []) then
    (writeUnit s.lastGood u s).1.offerEvents (writeUnit s.lastGood u s).2
  else s

/-- CAPTURE_COMPLETE (R95). -/
def execCaptureComplete (u : Fin 2) (s : State) : Host.Outcome State Fault Refusal :=
  .next (whenLocked (completeUnit u) s)

/-- The arrival of a good frame whose control word is IDLE, so that its outgoing slot is free (R139, R193); the row names no
frame, so its programme samples are free values. -/
def arriveIdle (s : State) : State :=
  arriveGood (Vector.ofFn fun j => Config.departureSample s.choices j) idleWord s

/-- What gets the free slot of an arrival, from the lists as they stand at its start; absent while the receiver is not
LOCKED (R193). -/
def freeSlotAt (s : State) : Option SlotChoice :=
  if s.lock = .locked then some (freeSlotChoice s) else none

/-- CUE_OUT_SENT: the arrival at which the oldest Cue Out entry leaves in the free control slot (R120, R193). While no entry
would leave there is no such arrival, and nothing changes. -/
def execCueOutSent (s : State) : Host.Outcome State Fault Refusal :=
  match freeSlotAt s with
  | some (.cueOut _) => .next (arriveIdle s)
  | _ => .next s

/-- REPORT_WORD_SENT: the arrival at which the next word of the head report leaves in the free control slot, the report
leaving the queue on its END word (R191, R193). While no report word would leave there is no such arrival, and nothing
changes. -/
def execReportWordSent (s : State) : Host.Outcome State Fault Refusal :=
  match freeSlotAt s with
  | some (.report _) => .next (arriveIdle s)
  | _ => .next s

end Sys2Proof.Machine
end

