-- ==== Sys2Proof/Machine/Link.lean ====
section
/-! DEFINITION. Power, the RESET line, and the receiver in SEARCH and CONFIRM. -/

namespace Sys2Proof.Machine

/-- Every block at its power-on value; the waiting commands and the number of past arrivals, the model's own, stay. -/
def State.restart (s : State) (station : BitVec 5) : State :=
  { State.powerOn station with choices := s.choices, pending := s.pending }

/-- POWER_ON: the station does what the RESET line does and reads its straps (R132, R140). -/
def execPowerOn (straps : BitVec 5) (s : State) : Host.Outcome State Fault Refusal := .next (s.restart straps)

/-- RESET_ASSERT: every block holds its power-on values while the line is asserted, and the line goes on sending what was
received before, one frame later (R132, R133). -/
def execResetAssert (s : State) : Host.Outcome State Fault Refusal :=
  .next { s.restart s.station with resetLine := true, lineOut := s.lineOut }

/-- RESET_RELEASE: the straps are read as the station number and the receiver starts in SEARCH (R132, R140). A release
while the line is not asserted changes nothing. -/
def execResetRelease (straps : BitVec 5) (s : State) : Host.Outcome State Fault Refusal :=
  if s.resetLine then .next { s.restart straps with lineOut := s.lineOut } else .next s

/-- One bit arrives in SEARCH: it goes out one frame later unchanged, and once 448 bits have arrived from the position
examined on, they are tested (R126, R133, R134). Bits that start without the marker are no candidate, and fail the frame
test like a bad one: in both cases the search goes on at the next position. A good candidate enters CONFIRM, which takes
no bits of a search. A receiver held by the RESET line or by its straps passes the bit (R132, R140). -/
def searchBit (s : State) (bit : Bool) : State :=
  let line := shiftIn s.lineOut bit
  if s.lock ≠ .search then s
  else if !s.receiving then { s with lineOut := line }
  else if s.waitingBits < 447 then { s with waitingBits := s.waitingBits + 1, lineOut := line }
  else
    let f := frameOfLine line
    if f.good then
      { s with
        lock := .confirm, confirm := 1, lastGood := f.samples, nextBit := s.nextBit + 448, waitingBits := 0, lineOut := line }
    else { s with nextBit := s.nextBit + 1, lineOut := line }

/-- SEARCH_CANDIDATE (R126): the bits arrive one after another, and every position at which they fill a frame is examined
in turn, until a good candidate fixes the boundaries. -/
def execSearchCandidate (skipped candidate : List Bool) (s : State) : Host.Outcome State Fault Refusal :=
  .next ((skipped ++ candidate).foldl searchBit s)

/-- CONFIRM_FRAME (R127, R128, R133, R134): a good frame adds one to the confirmation count, and the eighth enters
LOCKED with frame count 0 and LINK LOCKED; a bad frame returns to SEARCH,
where the 447 bits after its first wait to be searched. -/
def execConfirmFrame (line : LineFrame) (s : State) : Host.Outcome State Fault Refusal :=
  if s.lock = .locked then .next s
  else if s.lock = .confirm then
    let f := frameOfLine line
    if f.good then
      let taken : State := { s with lastGood := f.samples, nextBit := s.nextBit + 448, lineOut := line }
      if s.confirm + 1 = 8 then
        .next ({ taken with lock := .locked, confirm := 0, badRun := 0, frameCount := 0 }.offerEvent .linkLocked)
      else .next { taken with confirm := s.confirm + 1 }
    else .next { s with lock := .search, confirm := 0, nextBit := s.nextBit + 1, waitingBits := 447, lineOut := line }
  else .next { s with lineOut := line }

end Sys2Proof.Machine
end

