-- ==== Sys2Proof/Machine/Dispatch.lean ====
section
/-! DEFINITION. The dispatch: one arm for each command of the table. -/

namespace Sys2Proof.Machine

/-- The effect of a command on everything but the queue of waiting commands. -/
def exec (i : Instr) (s : State) : Host.Outcome State Fault Refusal :=
  match i with
  | .powerOn straps => Sys2Proof.Machine.execPowerOn straps s
  | .resetAssert => Sys2Proof.Machine.execResetAssert s
  | .resetRelease straps => Sys2Proof.Machine.execResetRelease straps s
  | .searchCandidate skipped candidate => Sys2Proof.Machine.execSearchCandidate skipped candidate s
  | .confirmFrame frame => Sys2Proof.Machine.execConfirmFrame frame s
  | .frameArrival frame => Sys2Proof.Machine.execFrameArrival frame s
  | .timeout => Sys2Proof.Machine.execTimeout s
  | .applyRelease lane => Sys2Proof.Machine.execApplyRelease lane s
  | .applyAbort lane => Sys2Proof.Machine.execApplyAbort lane s
  | .recordEnd lane => Sys2Proof.Machine.execRecordEnd lane s
  | .triggerFallsDue => Sys2Proof.Machine.execTriggerFallsDue s
  | .captureComplete unit => Sys2Proof.Machine.execCaptureComplete unit s
  | .cueOutSent => Sys2Proof.Machine.execCueOutSent s
  | .reportWordSent => Sys2Proof.Machine.execReportWordSent s
  | .readStation seq body => Sys2Proof.Machine.execReadStation seq body s
  | .clearStationLanes seq body => Sys2Proof.Machine.execClearStationLanes seq body s
  | .clearStationTables seq body => Sys2Proof.Machine.execClearStationTables seq body s
  | .clearStationStore seq body => Sys2Proof.Machine.execClearStationStore seq body s
  | .clearStationAll seq body => Sys2Proof.Machine.execClearStationAll seq body s
  | .loadRecord seq body => Sys2Proof.Machine.execLoadRecord seq body s
  | .eraseRecord seq body => Sys2Proof.Machine.execEraseRecord seq body s
  | .readRecord seq body => Sys2Proof.Machine.execReadRecord seq body s
  | .mapCue seq body => Sys2Proof.Machine.execMapCue seq body s
  | .unmapCue seq body => Sys2Proof.Machine.execUnmapCue seq body s
  | .readCueMap seq body => Sys2Proof.Machine.execReadCueMap seq body s
  | .take seq body => Sys2Proof.Machine.execTake seq body s
  | .release seq body => Sys2Proof.Machine.execRelease seq body s
  | .abort seq body => Sys2Proof.Machine.execAbort seq body s
  | .readLane seq body => Sys2Proof.Machine.execReadLane seq body s
  | .openClip seq body => Sys2Proof.Machine.execOpenClip seq body s
  | .appendClip seq body => Sys2Proof.Machine.execAppendClip seq body s
  | .closeClip seq body => Sys2Proof.Machine.execCloseClip seq body s
  | .deleteClip seq body => Sys2Proof.Machine.execDeleteClip seq body s
  | .readClip seq body => Sys2Proof.Machine.execReadClip seq body s
  | .captureNow seq body => Sys2Proof.Machine.execCaptureNow seq body s
  | .captureArmed seq body => Sys2Proof.Machine.execCaptureArmed seq body s
  | .cancelCapture seq body => Sys2Proof.Machine.execCancelCapture seq body s
  | .loadLaw seq body => Sys2Proof.Machine.execLoadLaw seq body s
  | .readLaw seq body => Sys2Proof.Machine.execReadLaw seq body s
  | .readTriggers seq body => Sys2Proof.Machine.execReadTriggers seq body s
  | .unknownOrder code seq body => Sys2Proof.Machine.execUnknownOrder code seq body s

end Sys2Proof.Machine
end

