-- ==== Sys2Proof/Safety.lean ====
section
/-! DEFINITION. What a sound state of the station is: the manual's "at every moment" statements, each as one predicate on
the state that every step is to keep. -/

namespace Sys2Proof.Machine

/-! The sample memory and the sparse tables -/

/-- The sample memory, the Splice Table and the Clip Directory are in canonical form, and the two tables list only
numbers they have (R1, R68). -/
def State.canonical (s : State) : Prop :=
  Memory.wf s.memory = true ∧ sparseSorted s.table = true ∧ sparseSorted s.clips = true
    ∧ (∀ p ∈ s.table, p.1 < 256) ∧ (∀ p ∈ s.clips, p.1 < 512 ∧ p.2 ≠ Clip.freed)

/-! The queues and the tables of the Trigger Unit and the Report Queue -/

/-- The Report Queue holds at most 32 reports, at most 24 of them event reports, the lost-events count stays within
65,535 (R185), and the word position lies within the head report (R191). -/
def State.reportsBounded (s : State) : Prop :=
  s.reports.length ≤ 32 ∧ s.eventCount ≤ 24 ∧ s.lost ≤ 65535
    ∧ match s.reports with
      | [] => s.wordPos = 0
      | r :: _ => s.wordPos ≤ r.body.length + 1

/-- The Trigger Queue holds at most 16 entries (R110), the Cue Out list at most 4 (R119). -/
def State.triggersBounded (s : State) : Prop := s.triggers.length ≤ 16 ∧ s.cueOut.length ≤ 4

/-- The Cue Map holds at most 64 entries, no two of one cue number, and no cue number 0 (R106). -/
def State.cueMapSound (s : State) : Prop :=
  s.cueMap.length ≤ 64 ∧ (s.cueMap.map CueMapEntry.cue).Nodup ∧ ∀ e ∈ s.cueMap, e.cue ≠ 0

/-- Every Fade Law Table entry is a gain from 0 to 65,536 (R49, R51). -/
def State.lawSound (s : State) : Prop := ∀ g ∈ s.law.toList, g ≤ 65536

/-- A record as LOAD RECORD leaves it: every field in the range of Table 1-1 and the distinct-slot condition (R2). -/
def Record.sound (r : Record) : Prop :=
  1 ≤ r.length ∧ r.length < 16777216 ∧ r.start < 16777216 ∧ r.voices.length ≤ 4 ∧ (r.voices.map Voice.slot).Nodup
    ∧ ∀ c, r.endCue = some c → c.cue ≠ 0

/-- Every LOADED record is sound (R2). -/
def State.tableSound (s : State) : Prop := ∀ p ∈ s.table, p.2.sound

/-! The lanes and the Slot Table -/

/-- A lane is IDLE with the values of R18, or busy with a copy, a source index, E of at least 1, T greater than k, and
exactly the slots of its copy's voices. -/
def Lane.sound (l : Lane) : Prop :=
  l = Lane.idle
    ∨ ∃ r, l.copy = some r ∧ l.phase ≠ .idle ∧ l.source.isSome = true ∧ 1 ≤ l.effLen ∧ l.k < l.total ∧ l.slots = r.slotSet

/-- Every lane is sound, and a Slot Table entry names a lane exactly when that lane owns the slot (R18, R21). -/
def State.lanesSound (s : State) : Prop :=
  (∀ i, (s.lane i).sound) ∧ ∀ (j : Fin 16) (i : Fin 8), s.slots[j] = some i ↔ j ∈ (s.lane i).slots

/-! The Line Receiver -/

/-- The receiver's counts: the confirmation count is 0 outside CONFIRM and 1 to 7 in it, the bad-run count is 0 outside
LOCKED and at most 2 in it; fewer bits than a frame wait to be searched, and none outside SEARCH; the receiver leaves SEARCH
only when the station receives (R126, R127, R130, R132, R140). -/
def State.receiverSound (s : State) : Prop :=
  (s.lock = .confirm → 1 ≤ s.confirm ∧ s.confirm ≤ 7) ∧ (s.lock ≠ .confirm → s.confirm = 0)
    ∧ (s.lock ≠ .locked → s.badRun = 0) ∧ s.badRun ≤ 2 ∧ s.waitingBits ≤ 447
    ∧ (s.lock ≠ .search → s.waitingBits = 0 ∧ s.receiving = true)

/-- While the receiver is not LOCKED every lane is IDLE, no slot is owned, the Trigger Queue and the Cue Out list are
empty, both capture units are IDLE and no order is in assembly (R133). -/
def State.quiet (s : State) : Prop :=
  (∀ i, s.lane i = Lane.idle) ∧ (∀ j : Fin 16, s.slots[j] = none) ∧ s.triggers = [] ∧ s.cueOut = []
    ∧ (∀ u, s.unit u = CaptureUnit.idle) ∧ s.assembly = none

/-! The Clip Store and the capture units -/

/-- A Clip Directory entry: FREE with the values of R68; RESERVED for a unit, without samples; FILLING; READY or DOOMED
without a filler; and in each state a chain of exactly as many blocks as the length needs (R69, R70). -/
def Clip.sound (v : Clip) : Prop :=
  (v.state = .free → v = Clip.freed) ∧ (v.state = .reserved → v.length = 0 ∧ v.filler ≠ some .management)
    ∧ (v.filler.isSome = true ↔ v.state = .reserved ∨ v.state = .filling)
    ∧ v.chain.length = blocksFor v.length

/-- A capture unit: IDLE with the values of R86; ARMED on a cue with its clip RESERVED; or RECORDING with its clip
FILLING, samples written equal to the clip's length and below the wanted length (R86, R87). -/
def unitSound (s : State) (u : Fin 2) : Prop :=
  s.unit u = CaptureUnit.idle
    ∨ ∃ c : Fin 512, (s.unit u).clip = some c ∧ (s.unit u).slot.isSome = true
      ∧ (s.clip c.val).filler = some (.unit u) ∧ (s.clip c.val).length = (s.unit u).written
      ∧ (s.unit u).written < (s.unit u).wanted
      ∧ (((s.unit u).state = .armed ∧ (s.clip c.val).state = .reserved ∧ (s.unit u).cue.isSome = true)
        ∨ ((s.unit u).state = .recording ∧ (s.clip c.val).state = .filling ∧ (s.unit u).cue = none))

/-- Every clip is sound and both capture units are, and a clip whose filler is a unit is the clip of that unit (R68 to R70,
R86, R87). -/
def State.captureSound (s : State) : Prop :=
  (∀ p ∈ s.clips, p.2.sound) ∧ (∀ u, unitSound s u)
    ∧ ∀ p ∈ s.clips, ∀ u, p.2.filler = some (.unit u) → (s.unit u).clip.map Fin.val = some p.1

/-- The block numbers that stand somewhere: the Free Block List and then every block chain. -/
def State.allBlocks (s : State) : List Nat := s.freeBlocks ++ s.clips.flatMap fun p => p.2.chain

/-- Each of the 4096 blocks is on the Free Block List or in one chain, and in one place only (R65). -/
def State.blocksSound (s : State) : Prop := s.allBlocks.Perm (List.range 4096)

/-- The number of voices, over all lanes that run a record, that name a clip (R76). -/
def State.voicesOf (s : State) (c : Nat) : Nat :=
  ((List.finRange 8).map fun i =>
    match (s.lane i).copy with
    | none => 0
    | some r => r.voices.countP fun v => v.clip.val == c).sum

/-- A clip's use count equals the number of voices whose running record names it; it is 0 for a clip in FREE, RESERVED
and FILLING, and at least 1 for a DOOMED clip (R76). -/
def State.usesSound (s : State) : Prop :=
  (∀ c, (s.clip c).uses = s.voicesOf c)
    ∧ ∀ c, ((s.clip c).uses ≠ 0 → (s.clip c).state = .ready ∨ (s.clip c).state = .doomed)
      ∧ ((s.clip c).state = .doomed → (s.clip c).uses ≠ 0)

/-! The Trigger Queue in frame counts -/

/-- The Trigger Queue holds at most 16 entries in the order of their frames to go, no entry is due more than 4095 frames
after its admission, and the present count has not passed its due frame; an entry that a RECORD_END row made has the next
count for its admission (log entry 5). The queue is empty while the receiver is not LOCKED (R104, R105, R110, R122). -/
def State.triggersOrdered (s : State) : Prop :=
  s.triggers.length ≤ 16
    ∧ s.triggers.Pairwise (fun e f => (e.due - s.frameCount).toNat ≤ (f.due - s.frameCount).toNat)
    ∧ (∀ e ∈ s.triggers, (e.due - e.admitted).toNat ≤ 4095
        ∧ (s.frameCount + 1 - e.admitted).toNat ≤ (e.due - e.admitted).toNat + 1)
    ∧ (s.lock ≠ .locked → s.triggers = [])

/-! Orders as the statements speak of them -/

/-- The code, sequence and body of a command that is the taking of an order. -/
def orderParts : Instr → Option (BitVec 8 × BitVec 8 × List Payload)
  | .powerOn _ | .resetAssert | .resetRelease _ | .searchCandidate _ _ | .confirmFrame _ | .frameArrival _ | .timeout
  | .applyRelease _ | .applyAbort _ | .recordEnd _ | .triggerFallsDue | .captureComplete _ | .cueOutSent
  | .reportWordSent => none
  | .readStation seq body => some (1, seq, body)
  | .clearStationLanes seq body | .clearStationTables seq body | .clearStationStore seq body
  | .clearStationAll seq body => some (2, seq, body)
  | .loadRecord seq body => some (3, seq, body)
  | .eraseRecord seq body => some (4, seq, body)
  | .readRecord seq body => some (5, seq, body)
  | .mapCue seq body => some (6, seq, body)
  | .unmapCue seq body => some (7, seq, body)
  | .readCueMap seq body => some (8, seq, body)
  | .take seq body => some (9, seq, body)
  | .release seq body => some (10, seq, body)
  | .abort seq body => some (11, seq, body)
  | .readLane seq body => some (12, seq, body)
  | .openClip seq body => some (13, seq, body)
  | .appendClip seq body => some (14, seq, body)
  | .closeClip seq body => some (15, seq, body)
  | .deleteClip seq body => some (16, seq, body)
  | .readClip seq body => some (17, seq, body)
  | .captureNow seq body | .captureArmed seq body => some (18, seq, body)
  | .cancelCapture seq body => some (19, seq, body)
  | .loadLaw seq body => some (20, seq, body)
  | .readLaw seq body => some (21, seq, body)
  | .readTriggers seq body => some (22, seq, body)
  | .unknownOrder code seq body => some (code, seq, body)

/-- The codes of the state-changing orders (R154). -/
def changingCodes : List (BitVec 8) := [2, 3, 4, 6, 7, 9, 10, 11, 13, 14, 15, 16, 18, 19, 20]

/-- A complete order is taken when it comes: LOCKED, and fewer than 32 reports held (R138, R152). An order row is so at the
frame count 0 of a lock too, and whatever order is in assembly (the model's choice, log entry 4). -/
def State.takesOrders (s : State) : Prop := s.lock = .locked ∧ s.reports.length < 32

/-- A state-changing order of this code and sequence is taken and executed: it is no repeat (R152, R156). -/
def State.takesFresh (s : State) (code seq : BitVec 8) : Prop :=
  s.takesOrders ∧ ∀ m, s.lastTaken = some m → ¬(m.seq = seq ∧ m.code = code)

/-- `s` with an acknowledgement at the tail of the Report Queue: order code, status, data (R158). -/
def State.told (s : State) (code seq : BitVec 8) (status : Status) (data : List Nat) : State :=
  { s with
    reports := s.reports ++ [{ code := 0, seq := seq, body := toPayloads (code.toNat :: status.code :: data) }] }

/-- `s` with an executed state-changing order in the last-taken memory and its acknowledgement queued (R155, R158). -/
def State.answered (s : State) (code seq : BitVec 8) (status : Status) : State :=
  { s with
    lastTaken := some { seq := seq, code := code, status := status }
    reports := s.reports ++ [{ code := 0, seq := seq, body := toPayloads [code.toNat, status.code] }] }

/-- The CLEAR STATION command of a scope. -/
def clearCommand (scope : Fin 4) (seq : BitVec 8) : Instr :=
  match scope with
  | 0 => .clearStationLanes seq [0]
  | 1 => .clearStationTables seq [1]
  | 2 => .clearStationStore seq [2]
  | 3 => .clearStationAll seq [3]

/-! Ends and abandonment as the statements speak of them -/

/-- `t` holds the Report Queue that `s` has after these offers (R184 to R186). -/
def State.reportsAfter (t s : State) (es : List Event) : Prop :=
  t.reports = (s.offerEvents es).reports ∧ t.lost = (s.offerEvents es).lost ∧ t.eventSeq = (s.offerEvents es).eventSeq

/-- A clip once the voices of a record have given back their uses, and once it is freed if it is DOOMED and has none left
(R76). -/
def State.clipGivenBack (s : State) (r : Record) (c : Nat) : Clip :=
  let uses := (s.clip c).uses - r.voices.countP fun v => v.clip.val == c
  if (s.clip c).state = .doomed ∧ uses = 0 then Clip.freed else { s.clip c with uses := uses }

/-- The listed clips that are DOOMED and whose every use is a voice of a record, in ascending number. -/
def State.clipsFreedBy (s : State) (r : Record) : List Nat :=
  (s.clips.filter fun p => p.2.state == .doomed && p.2.uses == r.voices.countP fun v => v.clip.val == p.1).map Prod.fst

/-- `t` is `s` with the splice of lane `i` over and nothing following: the lane IDLE, its slots and uses given back, the
DOOMED clips so emptied freed, the reports offered; nothing else differs but the Trigger Queue and the Cue Out list. -/
def State.spliceOver (s t : State) (i : Fin 8) (r : Record) (lane trigger : List Event) : Prop :=
  (∀ j, t.lane j = if j = i then Lane.idle else s.lane j)
    ∧ (∀ j : Fin 16, t.slots[j] = if s.slots[j] = some i then none else s.slots[j])
    ∧ (∀ c, t.clip c = s.clipGivenBack r c)
    ∧ t.freeBlocks = s.freeBlocks ++ (s.clipsFreedBy r).flatMap (fun c => (s.clip c).chain)
    ∧ t.reportsAfter s (lane ++ (s.clipsFreedBy r).map Event.clipFreed ++ trigger)
    ∧ t = { s with
        lanes := t.lanes, slots := t.slots, clips := t.clips, freeBlocks := t.freeBlocks, reports := t.reports, lost := t.lost,
        eventSeq := t.eventSeq, triggers := t.triggers, cueOut := t.cueOut }

/-- The SPLICE ENDED reports of every busy lane whose copy asks for one, in ascending lane number (R43). -/
def State.abandonReports (s : State) (reason : EndReason) : List Event :=
  (List.finRange 8).flatMap fun i =>
    match (s.lane i).copy with
    | none => []
    | some r => if r.reportEnd then [.spliceEnded i ((s.lane i).source.getD 0) r.tag reason] else []

/-- The listed DOOMED clips, in ascending number. -/
def State.doomedClips (s : State) : List Nat := (s.clips.filter fun p => p.2.state == .doomed).map Prod.fst

/-- `t` is `s` with the splice of lane `i` over and another record loaded at once: its own slots and uses given back and
those of the new record claimed, the DOOMED clips so emptied freed, the reports offered; nothing else differs but the
Trigger Queue and the Cue Out list. -/
def State.spliceFollowed (s t : State) (i : Fin 8) (r : Record) (index : Fin 256) (next : Record)
    (lane trigger : List Event) : Prop :=
  (∀ j, t.lane j = if j = i then Lane.loaded index next (effectiveLength s next) else s.lane j)
    ∧ (∀ j : Fin 16, t.slots[j] = if ∃ v ∈ next.voices, v.slot = j then some i
        else if s.slots[j] = some i then none else s.slots[j])
    ∧ (∀ c, t.clip c = { s.clipGivenBack r c with
        uses := (s.clipGivenBack r c).uses + next.voices.countP fun v => v.clip.val == c })
    ∧ t.freeBlocks = s.freeBlocks ++ (s.clipsFreedBy r).flatMap (fun c => (s.clip c).chain)
    ∧ t.reportsAfter s (lane ++ (s.clipsFreedBy r).map Event.clipFreed ++ trigger)
    ∧ t = { s with
        lanes := t.lanes, slots := t.slots, clips := t.clips, freeBlocks := t.freeBlocks, reports := t.reports, lost := t.lost,
        eventSeq := t.eventSeq, triggers := t.triggers, cueOut := t.cueOut }

/-- `t` holds the Trigger Queue and the Cue Out list that `s` has after the end cue of a record is handed to the Trigger
Unit at the arrival of count `now`, which raises the reports `missed` and `dropped`: into the queue if its number is mapped or awaited and there is room,
and onto the list if it is forwarded and there is room (R111, R113, R118, R119). -/
def State.endCueHandled (s t : State) (now : FrameCount) (cues : List EndCue) (missed dropped : List Event) : Prop :=
  let wanted : EndCue → Prop := fun c => c.cue ∈ s.cueMap.map CueMapEntry.cue
    ∨ ∃ u, (s.unit u).state = .armed ∧ (s.unit u).cue = some c.cue
  (cues = [] → t.triggers = s.triggers ∧ t.cueOut = s.cueOut ∧ missed = [] ∧ dropped = [])
    ∧ ∀ c, cues = [c] →
        (¬wanted c → t.triggers = s.triggers ∧ missed = [])
          ∧ (wanted c → s.triggers.length = 16 → t.triggers = s.triggers ∧ missed = [.missedCue c.cue none])
          ∧ (wanted c → s.triggers.length < 16 → missed = [] ∧ t.triggers = insertTrigger
              { due := now + BitVec.ofNat 32 c.offset.val, admitted := now, kind := .cue c.cue } s.triggers)
          ∧ (c.forward = false → t.cueOut = s.cueOut ∧ dropped = [])
          ∧ (c.forward = true → s.cueOut.length = 4 → t.cueOut = s.cueOut ∧ dropped = [.cueOutDropped c.cue])
          ∧ (c.forward = true → s.cueOut.length < 4 → dropped = [] ∧ t.cueOut = s.cueOut
              ++ [{ cue := c.cue, due := now + BitVec.ofNat 32 c.offset.val }])

/-- The lane that an event report of a lane names (Table 10-1). -/
def Event.laneOf : Event → Option (Fin 8)
  | .spliceStarted lane _ _ | .spliceEnded lane _ _ _ | .chainEnded lane _ _ | .superseded lane _ => some lane
  | .missedCue _ lane => lane
  | .captureStarted .. | .captureDone .. | .captureCancelled .. | .clipFreed .. | .cueOutDropped .. | .linkLocked
  | .linkLost .. | .orderDiscarded .. | .lostEvents .. => none

/-- The capture unit that an event report of a unit names (Table 10-1). -/
def Event.unitOf : Event → Option (Fin 2)
  | .captureStarted u _ | .captureDone u _ _ _ | .captureCancelled u _ _ => some u
  | .spliceStarted .. | .spliceEnded .. | .chainEnded .. | .missedCue .. | .superseded .. | .clipFreed ..
  | .cueOutDropped .. | .linkLocked | .linkLost .. | .orderDiscarded .. | .lostEvents .. => none

/-! The bits of the line as the statements speak of them -/

/-- The bits of a frame in the order of their bit periods (Table 7-3). -/
def lineBits (line : LineFrame) : List Bool := List.ofFn fun p : Fin 448 => line.getLsbD (447 - p.val)

/-- The frame that 448 bits make, the first of them in bit period 0 (Table 7-3). -/
def lineOfBits (bits : List Bool) : LineFrame := BitVec.ofNat 448 (bits.foldl (fun n b => 2 * n + b.toNat) 0)

/-- The frame that starts at a position of a stream of bits (R126). -/
def frameAt (stream : List Bool) (position : Nat) : Frame := frameOfLine (lineOfBits ((stream.drop position).take 448))

/-- The bits received and not yet searched (R126). -/
def State.heldBits (s : State) : List Bool := (lineBits s.lineOut).drop (448 - s.waitingBits)

/-- The 448 bits that leave next once more bits have passed unchanged (R133). -/
def State.lineAfter (s : State) (bits : List Bool) : LineFrame :=
  lineOfBits ((lineBits s.lineOut ++ bits).drop bits.length)

/-! The classification of Table 7-2 and R102, by the numbers of a control word's fields -/

/-- A control word that travels on: a cue of number 0 or not of this station's number, an order word not of this station's
number, a report word. -/
def travelsOn (station : BitVec 5) (w : ControlWord) : Bool :=
  let kind := w.toNat / 536870912
  let field := w.toNat / 16777216 % 32
  let cue := w.toNat / 4096 % 4096
  decide (5 ≤ kind ∨ (2 ≤ kind ∧ kind ≤ 4 ∧ field ≠ station.toNat) ∨ (kind = 1 ∧ (cue = 0 ∨ field ≠ station.toNat)))

/-- An order word for the Order Unit: its station field is this station's number or 31. -/
def forOrderUnit (station : BitVec 5) (w : ControlWord) : Bool :=
  let kind := w.toNat / 536870912
  let field := w.toNat / 16777216 % 32
  decide (2 ≤ kind ∧ kind ≤ 4 ∧ (field = station.toNat ∨ field = 31))

/-- A cue word that is acted on: its cue number is 1 to 4095 and its station field 0 or this station's number. -/
def actsOnCue (station : BitVec 5) (w : ControlWord) : Bool :=
  let kind := w.toNat / 536870912
  let field := w.toNat / 16777216 % 32
  let cue := w.toNat / 4096 % 4096
  decide (kind = 1 ∧ cue ≠ 0 ∧ (field = 0 ∨ field = station.toNat))

/-- The cue of a received control word, with its offset, when it is acted on and its number is mapped or awaited by an ARMED
unit: what is offered to the Trigger Queue (R102, R111). -/
def State.heardCue (s : State) (word : Option ControlWord) : List (Fin 4096 × Fin 4096) :=
  match word with
  | none => []
  | some w =>
    let cue := cueNumber (wordPayload w)
    if actsOnCue s.station w ∧ (cue ∈ s.cueMap.map CueMapEntry.cue
        ∨ ∃ u : Fin 2, (s.unit u).state = .armed ∧ (s.unit u).cue = some cue) then [(cue, cueOffset (wordPayload w))]
    else []

/-- A Trigger Queue after cues are offered to it at the arrival of count `now`: each finds room and is entered (R110, R113). -/
def queueHearing (now : FrameCount) (heard : List (Fin 4096 × Fin 4096)) (queue : List TriggerEntry) : List TriggerEntry :=
  if queue.length = 16 then queue
  else heard.foldl (fun q c => insertTrigger
    { due := now + BitVec.ofNat 32 c.2.val, admitted := now, kind := .cue c.1 } q) queue

/-- The MISSED CUE reports of the cues offered to a queue (R113). -/
def queueMissing (heard : List (Fin 4096 × Fin 4096)) (queue : List TriggerEntry) : List Event :=
  if queue.length = 16 then heard.map fun c => .missedCue c.1 none else []

/-- The sixteen samples that leave with the lanes as they stand: each owned slot carries the mix of its clip sample and its
programme sample at its lane's fade index, each other slot its programme sample (R46, R60, R63, R78). -/
def State.mixOf (s : State) (programme : SampleSet) : SampleSet :=
  Vector.ofFn fun j =>
    match s.slots[j] with
    | none => programme[j]
    | some i =>
      match (s.lane i).copy with
      | none => programme[j]
      | some r =>
        match r.voices.find? fun v => v.slot == j with
        | none => programme[j]
        | some v =>
          mixSample s (s.readClipSample v.clip.val (r.start + (s.lane i).k % (s.lane i).effLen)) programme[j]
            (fadeIndex r (s.lane i).total (s.lane i).k) r.under.val

/-! The outgoing control slot as the statements speak of it -/

/-- The word a station sends from a report at a word position (R183, R191). -/
def Report.wordAt (station : BitVec 5) (r : Report) (position : Nat) : ControlWord :=
  if position = 0 then controlWord .reportHead station (headPayload (BitVec.ofNat 8 r.code) r.seq r.body.length)
  else if position ≤ r.body.length then controlWord .reportBody station (r.body.getD (position - 1) 0)
  else controlWord .reportEnd station
    (endPayload (bodyCheck (headPayload (BitVec.ofNat 8 r.code) r.seq r.body.length) r.body) r.body.length)

/-- What the arbiter sends at the arrival of count `now`, and the Cue Out list, the reports and the word position it leaves,
in the precedence of R193; `word` is the control word of the arrival, absent when concealed. -/
def State.slotOutcome (s : State) (now : FrameCount) (word : Option ControlWord) :
    ControlWord × List CueOutEntry × List Report × Nat :=
  let free : ControlWord × List CueOutEntry × List Report × Nat :=
    match s.cueOut, s.reports with
    | e :: rest, _ =>
      let d := (e.due - now).toNat
      (controlWord .cue 0 (BitVec.ofNat 24 (4096 * e.cue.val + if 1 ≤ d ∧ d ≤ 4095 then d else 0)), rest, s.reports, s.wordPos)
    | [], r :: rest =>
      (r.wordAt s.station s.wordPos, [],
        if s.wordPos = r.body.length + 1 then (rest, 0) else (r :: rest, s.wordPos + 1))
    | [], [] => (0, [], [], s.wordPos)
  match word with
  | some w => if travelsOn s.station w then (w, s.cueOut, s.reports, s.wordPos) else free
  | none => free

/-! Soundness -/

/-- The "at every moment" predicates together: a sound state of the station. -/
structure State.Sound (s : State) : Prop where
  canonical : s.canonical
  reports : s.reportsBounded
  triggers : s.triggersBounded
  order : s.triggersOrdered
  cueMap : s.cueMapSound
  law : s.lawSound
  table : s.tableSound
  lanes : s.lanesSound
  receiver : s.receiverSound
  quiet : s.lock ≠ .locked → s.quiet
  capture : s.captureSound
  blocks : s.blocksSound
  uses : s.usesSound

end Sys2Proof.Machine
end

