-- ==== Sys2Proof/WellFormed.lean ====
section
/-! DEFINITION. Which commands the table's rows can be: the checks that the operand types do not make by themselves. An
ill-formed command is one that no line event and no order of that row is; `exec` is total on it all the same. -/

namespace Sys2Proof

/-- An order's body holds at most 64 words (R144, Table 8-1). -/
def bodyFits (body : List Payload) : Bool := body.length ≤ 64

/-- The body does not spell another scope of CLEAR STATION than `scope`: it is `scope` alone, a scope above 3, or of a
length that is no CLEAR STATION's (R166). -/
def scopeFits (scope : Nat) (body : List Payload) : Bool :=
  match body with
  | [w] => w.toNat == scope || 3 < w.toNat
  | _ => true

/-- The trigger cue of a CAPTURE body of the right length is 0 for CAPTURE_NOW and not 0 for CAPTURE_ARMED (R89). -/
def triggerFits (now : Bool) (body : List Payload) : Bool :=
  match body with
  | [_, _, _, _, cue] => (cue.toNat == 0) == now
  | _ => true

/-- Bits that can end with the last bit of a candidate: there is one at least, and when they hold a whole frame the last
448 of them start with the marker (R126). -/
def endsWithCandidate (bits : List Bool) : Bool :=
  bits != [] && (bits.length < 448 || (Machine.frameOfLine (bits.foldl Machine.shiftIn 0)).marker == Machine.markerValue)

/-- The checks of one command. -/
def Instr.wellFormed : Instr → Bool
  | .powerOn _ | .resetAssert | .resetRelease _ => true
  | .searchCandidate skipped candidate => candidate.length ≤ 448 && endsWithCandidate (skipped ++ candidate)
  | .confirmFrame _ | .frameArrival _ => true
  | .timeout | .applyRelease _ | .applyAbort _ | .recordEnd _ | .triggerFallsDue | .captureComplete _
  | .cueOutSent | .reportWordSent => true
  | .clearStationLanes _ body => bodyFits body && scopeFits 0 body
  | .clearStationTables _ body => bodyFits body && scopeFits 1 body
  | .clearStationStore _ body => bodyFits body && scopeFits 2 body
  | .clearStationAll _ body => bodyFits body && scopeFits 3 body
  | .captureNow _ body => bodyFits body && triggerFits true body
  | .captureArmed _ body => bodyFits body && triggerFits false body
  | .unknownOrder code _ body => bodyFits body && (code.toNat == 0 || 22 < code.toNat)
  | .readStation _ body | .loadRecord _ body | .eraseRecord _ body | .readRecord _ body | .mapCue _ body
  | .unmapCue _ body | .readCueMap _ body | .take _ body | .release _ body | .abort _ body | .readLane _ body
  | .openClip _ body | .appendClip _ body | .closeClip _ body | .deleteClip _ body | .readClip _ body
  | .cancelCapture _ body | .loadLaw _ body | .readLaw _ body | .readTriggers _ body => bodyFits body

end Sys2Proof
end

