-- ==== Sys2Proof/Certificates/Slice0/Obligations.lean ====
section
/-! DEFINITION. The statements for the provers, from the numbered rules of spec/. Every statement about one order's own
tests and effect holds for a station that takes it afresh (`State.takesFresh`, `State.takesOrders`); what happens otherwise
is said once for all orders (repeat, full queue, unlocked receiver). -/

section
open Sys2Proof Sys2Proof.Machine

/-! The machine as a whole -/

/-- One step executes the command at the front of the queue on the state with the queue's rest; with no command waiting
the station idles (the idling is the model's choice, log entry 3). -/
def Obligations.StepRunsTheFrontCommand : Prop :=
  ∀ s : State, (∀ c rest, s.pending = c :: rest → step s = exec c { s with pending := rest })
    ∧ (s.pending = [] → step s = .next s)

/-- Every command takes every state to a next state, with the queue of waiting commands as it was. That the queue stays is
the model's choice (log entry 3); so is that a row changes nothing whose condition fails, or that comes in a lock state or
with a RESET line it does not belong to (log entries 4, 5, 10, 13, 19); the rest rests on the rules the table names. -/
def Obligations.EveryCommandAnswersANextState : Prop :=
  ∀ (c : Instr) (s : State), ∃ t, exec c s = .next t ∧ t.pending = s.pending

/-! Power, the RESET line and the "at every moment" invariants -/

/-- POWER_ON and the RESET line return every block to its power-on values, and the straps are read at power-on and at the
release; the line goes on sending what was received before the RESET line was asserted, one frame later (R133). What leaves
first after power-on and the number kept until the release are the model's choice (log entries 1, 2); the model's own counter
and queue stay. A release of a line that is not asserted changes nothing (log entry 13). The LOCK indicator is off (R142). -/
def Obligations.PowerOnAndResetReturnPowerOnValues : Prop :=
  ∀ (s : State) (straps : BitVec 5),
    let fresh : BitVec 5 → Bool → LineFrame → State := fun station line sent =>
      { lock := .search, confirm := 0, badRun := 0, frameCount := 0, lastGood := Vector.replicate 16 0, nextBit := 0,
        waitingBits := 0, resetLine := line, station := station, assembly := none, lastTaken := none, cueMap := [], triggers := [], cueOut := [],
        table := [], lanes := Vector.replicate 8 Lane.idle, slots := Vector.replicate 16 none, law := State.defaultLaw,
        memory := [], freeBlocks := List.range 4096, clips := [], units := Vector.replicate 2 CaptureUnit.idle,
        reports := [], wordPos := 0, lost := 0, eventSeq := 0, lineOut := sent, choices := s.choices, pending := s.pending }
    exec (.powerOn straps) s = .next (fresh straps false 0)
      ∧ exec .resetAssert s = .next (fresh s.station true s.lineOut)
      ∧ exec (.resetRelease straps) s = .next (if s.resetLine then fresh straps false s.lineOut else s)
      ∧ ∀ station line sent, (fresh station line sent).lockIndicator = false

/-- The default law is 65,536 × k / 63 rounded to the nearest whole number, never exactly halfway (R50); under it a slot at
fade index 0 carries the programme sample exactly, whatever the under level, and at index 63 with under level 0 the clip
sample exactly (R62). -/
def Obligations.DefaultLawIsLinearAndExactAtItsEnds : Prop :=
  (∀ k : Fin 64, (State.defaultLaw[k] : Int) * 126 < 2 * 65536 * k.val + 63
      ∧ 2 * 65536 * (k.val : Int) - 63 < (State.defaultLaw[k] : Int) * 126)
    ∧ ∀ (s : State) (clip programme : Sample) (under : Fin 64), s.law = State.defaultLaw →
      mixSample s clip programme 0 under.val = programme ∧ mixSample s clip programme 63 0 = clip

/-- The state after reset is sound. -/
def Obligations.ResetStateIsSound : Prop := State.reset.Sound

/-- The sample memory, the Splice Table and the Clip Directory stay in canonical form; every LOADED record, Cue Map entry
and law entry stays in its range, and the Cue Map within 64 entries of distinct numbers (R2, R49, R106). -/
def Obligations.StepKeepsMemoryAndTables : Prop :=
  ∀ s t : State, step s = .next t →
    (s.canonical → t.canonical) ∧ (s.tableSound → t.tableSound) ∧ (s.cueMapSound → t.cueMapSound)
      ∧ (s.lawSound → t.lawSound)

/-- Every lane stays IDLE with the values of R18 or busy with k below T, and owns in the Slot Table exactly the slots of its
copy's voices (R18, R21). -/
def Obligations.StepKeepsLanesAndSlotTable : Prop :=
  ∀ s t : State, s.lanesSound → step s = .next t → t.lanesSound

/-- The Report Queue never holds more than 32 reports nor 24 event reports (R185). -/
def Obligations.StepKeepsReportQueueBounds : Prop :=
  ∀ s t : State, s.reportsBounded → step s = .next t → t.reportsBounded

/-- The Trigger Queue stays ordered by due frame, within 16 entries, every due frame at most 4095 frames after its entry's
admission and not behind the present count, across the wrap of the count (R104, R105, R110; that an entry may have the next
count for its admission is log entry 5); the Cue Out list stays within 4 entries (R119). -/
def Obligations.StepKeepsTriggerQueueOrdered : Prop :=
  ∀ s t : State, s.triggersOrdered → s.cueOut.length ≤ 4 → step s = .next t → t.triggersOrdered ∧ t.cueOut.length ≤ 4

/-- The receiver's counts stay in the ranges of Table 7-1; and at every moment the receiver is not LOCKED, every lane is
IDLE, the Trigger Queue and Cue Out list are empty, no capture unit is ARMED or RECORDING, and no order is in assembly
(R133). -/
def Obligations.StepKeepsReceiverAndQuiet : Prop :=
  ∀ s t : State, step s = .next t →
    (s.receiverSound → t.receiverSound)
      ∧ (s.lanesSound → s.captureSound → (s.lock ≠ .locked → s.quiet) → t.lock ≠ .locked → t.quiet)

/-- Every clip keeps the chain its length needs and a filler just while it is RESERVED or FILLING, and every capture unit
stays the filler of its clip, with samples written equal to the clip's length (R69, R70, R86, R87). -/
def Obligations.StepKeepsClipsAndUnits : Prop :=
  ∀ s t : State, s.canonical → s.captureSound → step s = .next t → t.captureSound

/-- Each of the 4096 blocks stays on the Free Block List or in one chain, never in two places (R65). -/
def Obligations.StepKeepsBlocksInOnePlace : Prop :=
  ∀ s t : State, s.canonical → s.captureSound → s.blocksSound → step s = .next t → t.blocksSound

/-- A clip's use count stays equal to the number of voices of running records that name it, and a DOOMED clip is freed when
its last use is given back (R76). -/
def Obligations.StepKeepsUseCounts : Prop :=
  ∀ s t : State, s.canonical → s.captureSound → s.lanesSound → s.usesSound → step s = .next t → t.usesSound

/-! Frames and control words -/

/-- The layouts of Tables 7-3 to 7-6 lose no bit: a frame, a control word and each payload written and read back is itself;
a control word has the value kind × 536,870,912 + station × 16,777,216 + payload (R141). A frame that the Line
Transmitter composes is good, and carries the samples and the control word it was given; its check is the sum of those
seventeen numbers modulo 65,536 (R125, R136). A frame's 448 bits hold marker, slots 0 to 15, control word and check in that
order, most significant first (Table 7-3), and a frame is good just when its marker is 5A3Ch and its check is right (R125).
Kinds, policies, statuses, report codes, report bodies and their coded fields travel as
the numbers of Tables 7-5, 8-3, 10-1 and 10-2, of R107 and of R151 (R159, R188). -/
def Obligations.FrameAndWordLayoutsRoundTrip : Prop :=
  (∀ f : Frame, frameOfLine (frameToLine f) = f) ∧ (∀ w : LineFrame, frameToLine (frameOfLine w) = w)
    ∧ (∀ f : Frame, (frameToLine f).toNat = f.marker.toNat * 2 ^ 432
        + ((List.finRange 16).map fun j => (f.samples[j]).toNat * 2 ^ (408 - 24 * j.val)).sum
        + f.control.toNat * 2 ^ 16 + f.check.toNat)
    ∧ (∀ f : Frame, f.good = true ↔ f.marker = 0x5A3C
        ∧ f.check.toNat = ((f.samples.toList.map BitVec.toNat).sum + f.control.toNat) % 65536)
    ∧ (∀ kind station payload, wordKind (controlWord kind station payload) = kind
        ∧ wordStation (controlWord kind station payload) = station ∧ wordPayload (controlWord kind station payload) = payload
        ∧ (controlWord kind station payload).toNat
          = kind.code.toNat * 536870912 + station.toNat * 16777216 + payload.toNat)
    ∧ (∀ w, controlWord (wordKind w) (wordStation w) (wordPayload w) = w)
    ∧ (∀ (code seq : BitVec 8) (n : Nat), n < 256 → headCode (headPayload code seq n) = code
        ∧ headSeq (headPayload code seq n) = seq ∧ bodyLength (headPayload code seq n) = n
        ∧ (headPayload code seq n).toNat = code.toNat * 65536 + seq.toNat * 256 + n)
    ∧ (∀ (check : BitVec 16) (n : Nat), n < 256 → endCheck (endPayload check n) = check
        ∧ bodyLength (endPayload check n) = n ∧ (endPayload check n).toNat = check.toNat * 256 + n)
    ∧ (∀ cue offset : Fin 4096, cueNumber (cuePayload cue offset) = cue ∧ cueOffset (cuePayload cue offset) = offset
        ∧ (cuePayload cue offset).toNat = cue.val * 4096 + offset.val)
    ∧ (∀ (samples : SampleSet) (control : ControlWord),
        let sent := frameOfLine (composeFrame samples control)
        sent.good = true ∧ sent.samples = samples ∧ sent.control = control
          ∧ sent.check.toNat = ((samples.toList.map BitVec.toNat).sum + control.toNat) % 65536)
    ∧ [WordKind.idle, .cue, .orderHead, .orderBody, .orderEnd, .reportHead, .reportBody, .reportEnd].map
        (fun k => k.code.toNat) = [0, 1, 2, 3, 4, 5, 6, 7]
    ∧ [Policy.queue, .cut, .skip].map Policy.code = [0, 1, 2]
    ∧ [Status.done, .repeated, .deferred, .unknownOrder, .badLength, .badField, .notFound, .wrongState, .unitBusy, .mapFull,
        .queueFull, .storeFull, .emptyClip].map Status.code = [0, 1, 2, 16, 17, 18, 19, 20, 21, 22, 23, 24, 25]
    ∧ [EndReason.normal, .released, .cut, .aborted, .cleared, .linkLost].map EndReason.code = [0, 1, 2, 3, 4, 5]
    ∧ [ChainReason.emptyRecord, .clipNotReady, .void, .slotConflict].map ChainReason.code = [0, 1, 2, 3]
    ∧ [DoneReason.complete, .storeFull, .linkLost].map DoneReason.code = [0, 1, 2]
    ∧ [CancelReason.order, .cleared, .linkLost].map CancelReason.code = [0, 1, 2]
    ∧ [DiscardReason.interrupted, .tooLong, .badLength, .check, .timeout, .linkLost].map DiscardReason.code
      = [0, 1, 2, 3, 4, 5]
    ∧ ∀ e : Event, (e.code, e.words) = match e with
        | .spliceStarted lane record tag => (1, [lane.val, record.val, tag.val])
        | .spliceEnded lane record tag reason => (2, [lane.val, record.val, tag.val, reason.code])
        | .chainEnded lane record reason => (3, [lane.val, record.val, reason.code])
        | .missedCue cue (some lane) => (4, [cue.val, lane.val])
        | .missedCue cue none => (4, [cue.val, 8])
        | .superseded lane record => (5, [lane.val, record.val])
        | .captureStarted unit clip => (6, [unit.val, clip])
        | .captureDone unit clip length reason => (7, [unit.val, clip, length, reason.code])
        | .captureCancelled unit clip reason => (8, [unit.val, clip, reason.code])
        | .clipFreed clip => (9, [clip])
        | .cueOutDropped cue => (10, [cue.val])
        | .linkLocked => (11, [])
        | .linkLost count => (12, [count.toNat / 16777216, count.toNat % 16777216])
        | .orderDiscarded seq reason => (13, [seq.toNat, reason.code])
        | .lostEvents count => (14, [count])

/-- The HEAD, BODY and END words of an order, sent with the check of R147, leave the assembly absent and offer exactly that
order for taking; an order in assembly before is discarded with INTERRUPTED, and a wrong check discards the order with CHECK
(R144 to R147). A FRAME_ARRIVAL whose END word completes an order is the same arrival with nothing in assembly, followed by
the taking of that order: against the state that the arrival's work has left, after its outgoing word was chosen (R153). -/
def Obligations.SentOrderIsGathered : Prop :=
  (∀ (s : State) (address : BitVec 5) (code seq : BitVec 8) (body : List Payload) (check : BitVec 16), body.length ≤ 64 →
    let head := headPayload code seq body.length
    let begun := handleOrderWord (some (controlWord .orderHead address head)) s
    let grown := body.foldl (fun u p => (handleOrderWord (some (controlWord .orderBody address p)) u).st) begun.st
    let closed := handleOrderWord (some (controlWord .orderEnd address (endPayload check body.length))) grown
    begun.events = (match s.assembly with
      | none => []
      | some a => [.orderDiscarded a.seq .interrupted])
      ∧ closed.st = { s with assembly := none }
      ∧ (check = bodyCheck head body → closed.events = [] ∧ ∃ a, closed.complete = some a
          ∧ a.address = address ∧ a.code = code ∧ a.seq = seq ∧ a.body = body ∧ a.start = s.frameCount)
      ∧ (check ≠ bodyCheck head body → closed.events = [.orderDiscarded seq .check] ∧ closed.complete = none))
    ∧ ∀ (s : State) (line : LineFrame) (a : Assembly), s.lock = .locked → (frameOfLine line).good → s.assembly = some a →
      a.address = s.station ∨ a.address = 31 → a.body.length = a.declared → a.declared ≤ 64 →
      (frameOfLine line).control = controlWord .orderEnd a.address (endPayload a.sum a.declared) →
      s.frameCount + 1 ≠ a.start + 2048 →
      ∃ u, exec (.frameArrival line) { s with assembly := none } = .next u ∧ u.assembly = none
        ∧ ∀ i, orderParts i = some (a.code, a.seq, a.body) → exec (.frameArrival line) s = exec i u

/-! Taking orders -/

/-- An order has no effect while the receiver is not LOCKED, and a frame then passes unchanged (R133, R138). That an event
row makes nothing then, and that a FRAME_ARRIVAL changes nothing but the frame sent in SEARCH and in CONFIRM, where the manual
gives no such event, is the model's choice (log entries 5, 10, 19). -/
def Obligations.UnlockedStationTakesNothing : Prop :=
  ∀ s : State, s.lock ≠ .locked →
    (∀ i parts, orderParts i = some parts → exec i s = .next s)
      ∧ (∀ lane unit, ∀ i ∈ [Instr.timeout, .applyRelease lane, .applyAbort lane, .recordEnd lane, .triggerFallsDue,
          .captureComplete unit, .cueOutSent, .reportWordSent], exec i s = .next s)
      ∧ ∀ line, exec (.frameArrival line) s = .next { s with lineOut := line }

/-- A complete order that finds 32 reports in the Report Queue is dropped and changes nothing; one that finds room is
acknowledged; and 32 reports include at least eight acknowledgements (R152). -/
def Obligations.FullReportQueueDropsTheOrder : Prop :=
  ∀ (s : State) (i : Instr) (code seq : BitVec 8) (body : List Payload), orderParts i = some (code, seq, body) →
    s.lock = .locked → s.reportsBounded →
    (s.reports.length = 32 → exec i s = .next s ∧ 8 ≤ (s.reports.countP fun r => r.code == 0))
      ∧ (s.reports.length < 32 → ∃ t ack more, exec i s = .next t ∧ t.reports = s.reports ++ ack :: more
          ∧ ack.code = 0 ∧ ack.seq = seq)

/-- A repeat of a state-changing order is not executed: it is acknowledged with the order code, REPEATED and the remembered
status, and no state of the station changes besides; so a third copy is answered in the same way (R157). -/
def Obligations.RepeatedOrderIsNotExecuted : Prop :=
  ∀ (s : State) (i : Instr) (code seq : BitVec 8) (body : List Payload) (status : Status),
    orderParts i = some (code, seq, body) → code ∈ changingCodes → s.takesOrders →
    s.lastTaken = some { seq := seq, code := code, status := status } →
    exec i s = .next (s.told code seq .repeated [status.code])

/-- A taken order yields exactly one acknowledgement, of its sequence, code and status, ahead of the event reports of its
execution; an order refused with a status of 16 or above, or answered REPEATED, changes nothing else but the last-taken
memory; the memory records the order just when it is a state-changing order that was executed (R155, R158, R159). -/
def Obligations.TakenOrderIsAnsweredOnce : Prop :=
  ∀ (s t : State) (i : Instr) (code seq : BitVec 8) (body : List Payload), orderParts i = some (code, seq, body) →
    s.takesOrders → exec i s = .next t →
    ∃ (status : Status) (data : List Nat) (more : List Report),
      t.reports = s.reports ++ { code := 0, seq := seq, body := toPayloads (code.toNat :: status.code :: data) } :: more
        ∧ (∀ r ∈ more, r.code ≠ 0)
        ∧ t.lastTaken = (if code ∈ changingCodes ∧ status ≠ .repeated then some { seq := seq, code := code, status := status }
            else s.lastTaken)
        ∧ (16 ≤ status.code ∨ status = .repeated ∨ code ∉ changingCodes →
            more = [] ∧ t = { s with reports := t.reports, lastTaken := t.lastTaken })

/-- An order of code 0 or above 22 is acknowledged UNKNOWN ORDER whatever its body, and nothing else changes (R154). -/
def Obligations.UnknownOrderIsAnswered : Prop :=
  ∀ (s : State) (code seq : BitVec 8) (body : List Payload), s.takesOrders → (code = 0 ∨ 22 < code.toNat) →
    exec (.unknownOrder code seq body) s = .next (s.told code seq .unknownOrder [])

/-! Station, record and lane orders -/

/-- READ STATION returns the nineteen words of Table 9-3, in its numbers, and changes nothing; with a body it is refused
(R164). -/
def Obligations.ReadStationReturnsTheSummary : Prop :=
  let phase : Phase → Nat := fun p => match p with
    | .idle => 0
    | .fadeIn => 1
    | .onAir => 2
    | .fadeOut => 3
    | .pause => 4
  let state : UnitState → Nat := fun u => match u with
    | .idle => 0
    | .armed => 1
    | .recording => 2
  ∀ (s : State) (seq : BitVec 8) (body : List Payload), s.takesOrders →
    exec (.readStation seq body) s = .next
      (if body.length ≠ 0 then s.told 1 seq .badLength []
       else s.told 1 seq .done
        [s.station.toNat, 2, s.frameCount.toNat / 16777216, s.frameCount.toNat % 16777216, s.freeBlocks.length,
          s.triggers.length, s.reports.length, s.lost, phase (s.lane 0).phase, phase (s.lane 1).phase, phase (s.lane 2).phase,
          phase (s.lane 3).phase, phase (s.lane 4).phase, phase (s.lane 5).phase, phase (s.lane 6).phase,
          phase (s.lane 7).phase, state (s.unit 0).state, state (s.unit 1).state, (s.lastTaken.map fun m => m.seq.toNat).getD 256])

/-- CLEAR STATION of each scope, on a sound station: lanes abandoned and DOOMED clips freed under every scope, the tables
under TABLES and ALL, the captures, the clips and the Free Block List under STORE and ALL; the reports follow the
acknowledgement in the order of R172, and what R171 names stands. A body of any length but 1 is refused with BAD LENGTH, a
scope above 3 with BAD FIELD (R166 to R172). -/
def Obligations.ClearStationReachesItsScope : Prop :=
  (∀ (s : State) (scope : Fin 4) (seq : BitVec 8), s.Sound → s.takesFresh 2 seq →
    ∃ t, exec (clearCommand scope seq) s = .next t
      ∧ (∀ i, t.lane i = Lane.idle) ∧ (∀ j : Fin 16, t.slots[j] = none) ∧ t.triggers = [] ∧ t.cueOut = []
      ∧ (if scope = 1 ∨ scope = 3 then t.table = [] ∧ t.cueMap = [] ∧ t.law = State.defaultLaw
         else t.table = s.table ∧ t.cueMap = s.cueMap ∧ t.law = s.law)
      ∧ (if 2 ≤ scope.val then
          (∀ u, t.unit u = CaptureUnit.idle) ∧ (∀ c, t.clip c = Clip.freed) ∧ t.freeBlocks = List.range 4096
         else
          t.units = s.units
            ∧ (∀ c, t.clip c = if (s.clip c).state = .doomed then Clip.freed else { s.clip c with uses := 0 })
            ∧ t.freeBlocks = s.freeBlocks ++ s.doomedClips.flatMap (fun c => (s.clip c).chain))
      ∧ t.reportsAfter (s.answered 2 seq .done)
          (s.abandonReports .cleared ++ s.doomedClips.map Event.clipFreed
            ++ if 2 ≤ scope.val then
                (List.finRange 2).flatMap fun u =>
                  if (s.unit u).state = .idle then [] else [Event.captureCancelled u (s.unit u).clipNumber .cleared]
              else [])
      ∧ t = { s with
          lanes := t.lanes, slots := t.slots, triggers := t.triggers, cueOut := t.cueOut, table := t.table,
          cueMap := t.cueMap, law := t.law, units := t.units, clips := t.clips, freeBlocks := t.freeBlocks,
          reports := t.reports, lost := t.lost, eventSeq := t.eventSeq,
          lastTaken := some { seq := seq, code := 2, status := .done } })
    ∧ ∀ (s : State) (seq : BitVec 8) (body : List Payload), s.takesFresh 2 seq →
      ∀ i ∈ [Instr.clearStationLanes seq body, .clearStationTables seq body, .clearStationStore seq body,
          .clearStationAll seq body],
        (body.length ≠ 1 → exec i s = .next (s.answered 2 seq .badLength))
          ∧ ∀ w, body = [w] → 3 < w.toNat → exec i s = .next (s.answered 2 seq .badField)

/-- LOAD RECORD tests the shape of its body and then its fields, and makes the named record LOADED with exactly the fields
it carries (R13, R14). -/
def Obligations.LoadRecordTestsAndLoads : Prop :=
  ∀ (s : State) (seq : BitVec 8) (body : List Payload), s.takesFresh 3 seq →
    let f : Nat → Nat := fun n => (body.getD n 0).toNat
    let shaped := 15 ≤ body.length ∧ body.length ≤ 23
    let fields := f 0 ≤ 255 ∧ f 1 ≠ 0 ∧ f 3 ≤ 255 ∧ f 4 ≤ 1023 ∧ f 5 ≤ 1023 ∧ f 6 ≤ 63 ∧ f 7 ≤ 256 ∧ f 8 ≤ 1 ∧ f 9 ≤ 1
      ∧ f 10 ≤ 255 ∧ f 11 ≤ 4095 ∧ f 12 ≤ 4095 ∧ f 13 ≤ 1 ∧ (∀ v < f 14, f (15 + 2 * v) ≤ 15 ∧ f (16 + 2 * v) ≤ 511)
      ∧ ∀ v < f 14, ∀ w < v, f (15 + 2 * v) ≠ f (15 + 2 * w)
    (¬shaped → exec (.loadRecord seq body) s = .next (s.answered 3 seq .badLength))
      ∧ (shaped → 4 < f 14 → exec (.loadRecord seq body) s = .next (s.answered 3 seq .badField))
      ∧ (shaped → f 14 ≤ 4 → body.length ≠ 15 + 2 * f 14 →
          exec (.loadRecord seq body) s = .next (s.answered 3 seq .badLength))
      ∧ (shaped → f 14 ≤ 4 → body.length = 15 + 2 * f 14 → ¬fields →
          exec (.loadRecord seq body) s = .next (s.answered 3 seq .badField))
      ∧ (shaped → f 14 ≤ 4 → body.length = 15 + 2 * f 14 → fields →
          ∃ r : Record, exec (.loadRecord seq body) s = .next ((s.setRecord (f 0) r).answered 3 seq .done)
            ∧ r.length = f 1 ∧ r.start = f 2 ∧ r.repeats.val = f 3 ∧ r.rIn.val = f 4 ∧ r.rOut.val = f 5 ∧ r.under.val = f 6
            ∧ (r.next.map Fin.val) = (if f 7 = 256 then none else some (f 7))
            ∧ r.reportStart = decide (f 8 = 1) ∧ r.reportEnd = decide (f 9 = 1) ∧ r.tag.val = f 10
            ∧ (r.endCue.map fun c => (c.cue.val, c.offset.val, c.forward))
              = (if f 11 = 0 then none else some (f 11, f 12, decide (f 13 = 1)))
            ∧ (r.voices.map fun v => (v.slot.val, v.clip.val))
              = (List.range (f 14)).map fun v => (f (15 + 2 * v), f (16 + 2 * v)))
      ∧ ∀ (r : Record) (j : Nat), (s.setRecord (f 0) r).record j = if j = f 0 then some r else s.record j

/-- A record loaded from the words that READ RECORD gives of it is that record, and READ RECORD then returns those words
(R14, R16): the two codings agree in every field. -/
def Obligations.LoadedRecordIsReadBack : Prop :=
  ∀ (s : State) (seq again : BitVec 8) (index : Fin 256) (r : Record), r.sound → s.takesFresh 3 seq →
    s.reports.length < 31 →
    exec (.loadRecord seq (toPayloads (index.val :: r.words))) s
        = .next ((s.setRecord index.val r).answered 3 seq .done)
      ∧ exec (.readRecord again (toPayloads [index.val])) ((s.setRecord index.val r).answered 3 seq .done)
        = .next (((s.setRecord index.val r).answered 3 seq .done).told 5 again .done (1 :: r.words))

/-- ERASE RECORD makes one LOADED record EMPTY and refuses an EMPTY one; READ RECORD returns the state word 0 of an EMPTY
record, and state word 1 and the fields of a LOADED one (R15, R16, R174). -/
def Obligations.EraseAndReadRecord : Prop :=
  ∀ (s : State) (seq : BitVec 8) (body : List Payload),
    let n := (body.getD 0 0).toNat
    (s.takesFresh 4 seq → s.canonical →
      exec (.eraseRecord seq body) s = .next
        (if body.length ≠ 1 then s.answered 4 seq .badLength
         else if 255 < n then s.answered 4 seq .badField
         else if s.record n = none then s.answered 4 seq .notFound
         else (s.eraseRecord n).answered 4 seq .done)
        ∧ ∀ j, (s.eraseRecord n).record j = if j = n then none else s.record j)
      ∧ (s.takesOrders →
        exec (.readRecord seq body) s = .next
          (if body.length ≠ 1 then s.told 5 seq .badLength []
           else if 255 < n then s.told 5 seq .badField []
           else s.told 5 seq .done
            (match s.record n with
             | none => [0]
             | some r => [1, r.length, r.start, r.repeats.val, r.rIn.val, r.rOut.val, r.under.val,
                 (r.next.map Fin.val).getD 256, if r.reportStart then 1 else 0, if r.reportEnd then 1 else 0, r.tag.val,
                 (r.endCue.map fun c => c.cue.val).getD 0, (r.endCue.map fun c => c.offset.val).getD 0,
                 (r.endCue.map fun c => if c.forward then 1 else 0).getD 0, r.voices.length]
                 ++ r.voices.flatMap fun v => [v.slot.val, v.clip.val])))

/-- RELEASE and ABORT are refused by an IDLE lane, and otherwise placed in the lane's waiting order, nothing else of the
lane changing (R20, R40, R175, R176). -/
def Obligations.ReleaseAndAbortWait : Prop :=
  ∀ (s : State) (seq : BitVec 8) (body : List Payload) (order : WaitingOrder) (code : BitVec 8) (i : Instr),
    (order = .release ∧ code = 10 ∧ i = .release seq body) ∨ (order = .abort ∧ code = 11 ∧ i = .abort seq body) →
    s.takesFresh code seq →
    (body.length ≠ 1 → exec i s = .next (s.answered code seq .badLength))
      ∧ (∀ w, body = [w] → 7 < w.toNat → exec i s = .next (s.answered code seq .badField))
      ∧ ∀ lane : Fin 8, body = toPayloads [lane.val] →
          exec i s = .next
            (if (s.lane lane).phase = .idle then s.answered code seq .wrongState
             else ({ s with lanes := s.lanes.set lane { s.lane lane with waiting := some order } }).answered code seq .done)

/-- READ LANE returns the context of the lane it names in the order and the numbers of Table 9-5: 11 words for an IDLE lane,
25 + 3v words for a lane whose copy has v voices (R48, R178, R179). -/
def Obligations.ReadLaneReturnsTheContext : Prop :=
  let phase : Phase → Nat := fun p => match p with
    | .idle => 0
    | .fadeIn => 1
    | .onAir => 2
    | .fadeOut => 3
    | .pause => 4
  let mark : EndMark → Nat := fun m => match m with
    | .unmarked => 0
    | .released => 1
    | .cut => 2
  let kind : PendingKind → Nat := fun k => match k with
    | .queued => 0
    | .cut => 1
  ∀ (s : State) (seq : BitVec 8) (body : List Payload), s.takesOrders → s.lanesSound →
    (body.length ≠ 1 → exec (.readLane seq body) s = .next (s.told 12 seq .badLength []))
      ∧ (∀ w, body = [w] → 7 < w.toNat → exec (.readLane seq body) s = .next (s.told 12 seq .badField []))
      ∧ ∀ lane : Fin 8, body = toPayloads [lane.val] →
          let l := s.lane lane
          let context := [phase l.phase, (l.source.map Fin.val).getD 256, l.k / 16777216, l.k % 16777216, l.effLen,
            l.total / 16777216, l.total % 16777216, mark l.mark, (l.pending.map fun p => p.record.val).getD 256,
            (l.pending.map fun p => kind p.kind).getD 0, l.slots.length] ++ l.slots.map Fin.val
          (l = Lane.idle → exec (.readLane seq body) s
              = .next (s.told 12 seq .done [0, 256, 0, 0, 0, 0, 0, 0, 256, 0, 0]))
            ∧ (∀ r, l.copy = some r → exec (.readLane seq body) s = .next (s.told 12 seq .done (context ++ r.words))
                ∧ l.slots.Pairwise (· < ·) ∧ (∀ j, j ∈ l.slots ↔ ∃ v ∈ r.voices, v.slot = j)
                ∧ ((r.voices.map Voice.slot).Nodup → (context ++ r.words).length = 25 + 3 * r.voices.length))

/-! Cue orders -/

/-- MAP CUE replaces the entry of its cue number in its place, or adds one while the map holds fewer than 64; UNMAP CUE
removes it; the Trigger Queue stands. The policy travels as QUEUE 0, CUT 1, SKIP 2 (R107, R108). -/
def Obligations.MapAndUnmapCue : Prop :=
  let coded : Policy → Nat := fun p => match p with
    | .queue => 0
    | .cut => 1
    | .skip => 2
  ∀ (s : State) (seq : BitVec 8) (body : List Payload),
    let f : Nat → Nat := fun n => (body.getD n 0).toNat
    (s.takesFresh 6 seq →
      (body.length ≠ 4 → exec (.mapCue seq body) s = .next (s.answered 6 seq .badLength))
        ∧ (body.length = 4 → (f 0 = 0 ∨ 4095 < f 0 ∨ 7 < f 1 ∨ 255 < f 2 ∨ 2 < f 3) →
            exec (.mapCue seq body) s = .next (s.answered 6 seq .badField))
        ∧ ∀ e : CueMapEntry, e.cue ≠ 0 → body = toPayloads [e.cue.val, e.lane.val, e.record.val, coded e.policy] →
            exec (.mapCue seq body) s = .next
              (if e.cue ∈ s.cueMap.map CueMapEntry.cue then
                ({ s with cueMap := s.cueMap.map fun (old : CueMapEntry) => if old.cue = e.cue then e else old }).answered 6 seq .done
               else if s.cueMap.length < 64 then ({ s with cueMap := s.cueMap ++ [e] }).answered 6 seq .done
               else s.answered 6 seq .mapFull))
      ∧ (s.takesFresh 7 seq →
        (body.length ≠ 1 → exec (.unmapCue seq body) s = .next (s.answered 7 seq .badLength))
          ∧ (body.length = 1 → (f 0 = 0 ∨ 4095 < f 0) →
              exec (.unmapCue seq body) s = .next (s.answered 7 seq .badField))
          ∧ ∀ c : Fin 4096, c ≠ 0 → body = toPayloads [c.val] →
              exec (.unmapCue seq body) s = .next
                (if c ∈ s.cueMap.map CueMapEntry.cue then
                  ({ s with cueMap := s.cueMap.filter fun (e : CueMapEntry) => e.cue ≠ c }).answered 7 seq .done
                 else s.answered 7 seq .notFound))

/-- READ CUE MAP returns the size of the map, the number listed, and the entries of the lowest cue numbers from the
starting number on, up to 30 of them, in ascending cue number (R109). -/
def Obligations.ReadCueMapListsInOrder : Prop :=
  ∀ (s : State) (seq : BitVec 8) (body : List Payload), s.takesOrders → s.cueMapSound →
    (1 < body.length → exec (.readCueMap seq body) s = .next (s.told 8 seq .badLength []))
      ∧ (∀ w, body = [w] → (w.toNat = 0 ∨ 4095 < w.toNat) →
          exec (.readCueMap seq body) s = .next (s.told 8 seq .badField []))
      ∧ ∀ start : Fin 4096, (body = [] ∧ start = 1) ∨ (body = toPayloads [start.val] ∧ start ≠ 0) →
          ∃ listed : List CueMapEntry,
            exec (.readCueMap seq body) s = .next (s.told 8 seq .done ([s.cueMap.length, listed.length]
                ++ listed.flatMap fun e => [e.cue.val, e.record.val + 256 * e.lane.val + 2048 * e.policy.code]))
              ∧ listed.Pairwise (fun a b => a.cue < b.cue)
              ∧ listed.length = min 30 (s.cueMap.countP fun e => start ≤ e.cue)
              ∧ (∀ e ∈ listed, e ∈ s.cueMap ∧ start ≤ e.cue)
              ∧ ∀ e ∈ s.cueMap, start ≤ e.cue → e ∈ listed ∨ ∀ x ∈ listed, x.cue < e.cue

/-- TAKE enters a trigger due its delay after the present frame count, after every entry not later and before the first
later one, or is refused when 16 wait (R110, R117). -/
def Obligations.TakeEntersATrigger : Prop :=
  ∀ (s : State) (seq : BitVec 8) (body : List Payload), s.takesFresh 9 seq →
    let f : Nat → Nat := fun n => (body.getD n 0).toNat
    (body.length ≠ 4 → exec (.take seq body) s = .next (s.answered 9 seq .badLength))
      ∧ (body.length = 4 → (7 < f 0 ∨ 255 < f 1 ∨ 4095 < f 2 ∨ 2 < f 3) →
          exec (.take seq body) s = .next (s.answered 9 seq .badField))
      ∧ ∀ (lane : Fin 8) (record : Fin 256) (delay : Fin 4096) (policy : Policy),
          body = toPayloads [lane.val, record.val, delay.val, policy.code] →
          (16 ≤ s.triggers.length → exec (.take seq body) s = .next (s.answered 9 seq .queueFull))
            ∧ (s.triggers.length < 16 → ∃ before after,
                let e : TriggerEntry :=
                  { due := s.frameCount + BitVec.ofNat 32 delay.val, admitted := s.frameCount
                    kind := .take lane record policy }
                exec (.take seq body) s = .next (({ s with triggers := before ++ e :: after }).answered 9 seq .done)
                  ∧ s.triggers = before ++ after ∧ (∀ x ∈ before, ¬laterThan x.due e.due)
                  ∧ ∀ x, after.head? = some x → laterThan x.due e.due)

/-- READ TRIGGERS returns the number of entries and three words for each in queue order: frames to go, cue number or
4096 + 8 × policy + lane, and 0 or the record (R124). -/
def Obligations.ReadTriggersListsTheQueue : Prop :=
  ∀ (s : State) (seq : BitVec 8) (body : List Payload), s.takesOrders →
    exec (.readTriggers seq body) s = .next
      (if body.length ≠ 0 then s.told 22 seq .badLength []
       else s.told 22 seq .done (s.triggers.length :: s.triggers.flatMap fun e =>
        match e.kind with
        | .cue n => [(e.due - s.frameCount).toNat, n.val, 0]
        | .take lane record policy => [(e.due - s.frameCount).toNat, 4096 + 8 * policy.code + lane.val, record.val]))

/-! Clip, capture and law orders -/

/-- OPEN CLIP makes a FREE clip FILLING by management, claiming no block; CLOSE CLIP makes such a clip READY when it holds
a sample (R79, R81). -/
def Obligations.OpenAndCloseClip : Prop :=
  ∀ (s : State) (seq : BitVec 8) (body : List Payload), s.canonical →
    (s.takesFresh 13 seq →
      (body.length ≠ 1 → exec (.openClip seq body) s = .next (s.answered 13 seq .badLength))
        ∧ (∀ w, body = [w] → 511 < w.toNat → exec (.openClip seq body) s = .next (s.answered 13 seq .badField))
        ∧ ∀ c : Fin 512, body = toPayloads [c.val] →
            ((s.clip c.val).state ≠ .free → exec (.openClip seq body) s = .next (s.answered 13 seq .wrongState))
              ∧ ((s.clip c.val).state = .free → ∃ clips,
                  exec (.openClip seq body) s = .next (({ s with clips := clips }).answered 13 seq .done)
                    ∧ ∀ d, ({ s with clips := clips } : State).clip d = if d = c.val then
                        { state := .filling, length := 0, chain := [], uses := 0, filler := some .management, short := false }
                      else s.clip d))
      ∧ (s.takesFresh 15 seq →
        (body.length ≠ 1 → exec (.closeClip seq body) s = .next (s.answered 15 seq .badLength))
          ∧ (∀ w, body = [w] → 511 < w.toNat → exec (.closeClip seq body) s = .next (s.answered 15 seq .badField))
          ∧ ∀ c : Fin 512, body = toPayloads [c.val] →
              let managed := (s.clip c.val).state = .filling ∧ (s.clip c.val).filler = some .management
              (¬managed → exec (.closeClip seq body) s = .next (s.answered 15 seq .wrongState))
                ∧ (managed → (s.clip c.val).length = 0 →
                    exec (.closeClip seq body) s = .next (s.answered 15 seq .emptyClip))
                ∧ (managed → (s.clip c.val).length ≠ 0 → ∃ clips,
                    exec (.closeClip seq body) s = .next (({ s with clips := clips }).answered 15 seq .done)
                      ∧ ∀ d, ({ s with clips := clips } : State).clip d = if d = c.val then
                          { s.clip c.val with state := .ready, filler := none, short := false } else s.clip d))

/-- APPEND CLIP's tests in their order, each leaving clip, list and memory as they stood; an order that passes them writes
its samples at positions L to L + n − 1, claiming the head of the Free Block List before a position that is a multiple of
256; the samples read back, and every other place of the memory, every other clip and every earlier position read as before
(R66, R69, R78, R80). -/
def Obligations.AppendedSamplesReadBack : Prop :=
  (∀ (s : State) (seq : BitVec 8) (body : List Payload), s.takesFresh 14 seq →
    let c := (body.getD 0 0).toNat
    let n := body.length - 1
    let l := (s.clip c).length
    let managed := (s.clip c).state = .filling ∧ (s.clip c).filler = some .management
    (body.length < 2 ∨ 64 < body.length → exec (.appendClip seq body) s = .next (s.answered 14 seq .badLength))
      ∧ (2 ≤ body.length → body.length ≤ 64 → 511 < c →
          exec (.appendClip seq body) s = .next (s.answered 14 seq .badField))
      ∧ (2 ≤ body.length → body.length ≤ 64 → c ≤ 511 → ¬managed →
          exec (.appendClip seq body) s = .next (s.answered 14 seq .wrongState))
      ∧ (2 ≤ body.length → body.length ≤ 64 → c ≤ 511 → managed →
          s.freeBlocks.length < (l + n + 255) / 256 - (l + 255) / 256 →
          exec (.appendClip seq body) s = .next (s.answered 14 seq .storeFull)))
    ∧ ∀ (s : State) (seq : BitVec 8) (c : Fin 512) (xs : List Sample), s.Sound → s.takesFresh 14 seq →
      (s.clip c.val).state = .filling → (s.clip c.val).filler = some .management → 1 ≤ xs.length → xs.length ≤ 63 →
      let l := (s.clip c.val).length
      let need := (l + xs.length + 255) / 256 - (l + 255) / 256
      need ≤ s.freeBlocks.length →
      ∃ t, exec (.appendClip seq (BitVec.ofNat 24 c.val :: xs)) s = .next t
        ∧ t.clip c.val
          = { s.clip c.val with length := l + xs.length, chain := (s.clip c.val).chain ++ s.freeBlocks.take need }
        ∧ t.freeBlocks = s.freeBlocks.drop need
        ∧ (∀ d, d ≠ c.val → t.clip d = s.clip d)
        ∧ (∀ q < xs.length, t.readClipSample c.val (l + q) = xs.getD q 0)
        ∧ (∀ d q, q < (s.clip d).length → t.readClipSample d q = s.readClipSample d q)
        ∧ (∀ a, (∀ q < xs.length, a ≠ sampleAddress ((t.clip c.val).chain.getD ((l + q) / 256) 0) ((l + q) % 256)) →
            Memory.read t.memory a = Memory.read s.memory a)
        ∧ t = { s.answered 14 seq .done with clips := t.clips, freeBlocks := t.freeBlocks, memory := t.memory }

/-- DELETE CLIP by the state of the clip, as R82 tables it. -/
def Obligations.DeleteClipByState : Prop :=
  ∀ (s : State) (seq : BitVec 8) (body : List Payload), s.canonical → s.takesFresh 16 seq →
    (body.length ≠ 1 → exec (.deleteClip seq body) s = .next (s.answered 16 seq .badLength))
      ∧ (∀ w, body = [w] → 511 < w.toNat → exec (.deleteClip seq body) s = .next (s.answered 16 seq .badField))
      ∧ ∀ c : Fin 512, body = toPayloads [c.val] →
          let v := s.clip c.val
          (v.state = .free → exec (.deleteClip seq body) s = .next (s.answered 16 seq .notFound))
            ∧ (v.state = .reserved ∨ (v.state = .filling ∧ v.filler ≠ some .management) →
                exec (.deleteClip seq body) s = .next (s.answered 16 seq .unitBusy))
            ∧ ((v.state = .filling ∧ v.filler = some .management) ∨ (v.state = .ready ∧ v.uses = 0) → ∃ clips,
                exec (.deleteClip seq body) s
                    = .next (({ s with clips := clips, freeBlocks := s.freeBlocks ++ v.chain }).answered 16 seq .done)
                  ∧ ∀ d, ({ s with clips := clips } : State).clip d = if d = c.val then Clip.freed else s.clip d)
            ∧ (v.state = .ready → v.uses ≠ 0 → ∃ clips,
                exec (.deleteClip seq body) s = .next (({ s with clips := clips }).answered 16 seq .deferred)
                  ∧ ∀ d, ({ s with clips := clips } : State).clip d
                    = if d = c.val then { v with state := .doomed } else s.clip d)
            ∧ (v.state = .doomed → exec (.deleteClip seq body) s = .next (s.answered 16 seq .deferred))

/-- READ CLIP returns state, length, use count, filler, short flag, block count and up to 32 blocks of a clip in any state,
in the numbers of R83. -/
def Obligations.ReadClipReturnsTheEntry : Prop :=
  ∀ (s : State) (seq : BitVec 8) (body : List Payload), s.takesOrders →
    (body.length ≠ 1 → exec (.readClip seq body) s = .next (s.told 17 seq .badLength []))
      ∧ (∀ w, body = [w] → 511 < w.toNat → exec (.readClip seq body) s = .next (s.told 17 seq .badField []))
      ∧ ∀ c : Fin 512, body = toPayloads [c.val] →
          let v := s.clip c.val
          let state := match v.state with
            | .free => 0
            | .reserved => 1
            | .filling => 2
            | .ready => 3
            | .doomed => 4
          let filler := match v.filler with
            | some (.unit u) => u.val
            | some .management => 2
            | none => 3
          exec (.readClip seq body) s = .next (s.told 17 seq .done
            ([state, v.length, v.uses, filler, if v.short then 1 else 0, v.chain.length]
              ++ v.chain.take 32))

/-- CAPTURE's tests in their order, and its start with trigger cue 0 or its arming on a cue (R89 to R91). -/
def Obligations.CaptureStartsOrArms : Prop :=
  ∀ (s : State) (seq : BitVec 8) (body : List Payload) (i : Instr), s.canonical → s.takesFresh 18 seq →
    i = .captureNow seq body ∨ i = .captureArmed seq body →
    let f : Nat → Nat := fun n => (body.getD n 0).toNat
    (body.length ≠ 5 → exec i s = .next (s.answered 18 seq .badLength))
      ∧ (body.length = 5 → (1 < f 0 ∨ 511 < f 1 ∨ 15 < f 2 ∨ f 3 = 0 ∨ 1048576 < f 3 ∨ 4095 < f 4) →
          exec i s = .next (s.answered 18 seq .badField))
      ∧ ∀ (u : Fin 2) (c : Fin 512) (slot : Fin 16) (wanted : Nat) (cue : Fin 4096), 1 ≤ wanted → wanted ≤ 1048576 →
          body = toPayloads [u.val, c.val, slot.val, wanted, cue.val] →
          ((s.unit u).state ≠ .idle → exec i s = .next (s.answered 18 seq .unitBusy))
            ∧ ((s.unit u).state = .idle → (s.clip c.val).state ≠ .free →
                exec i s = .next (s.answered 18 seq .wrongState))
            ∧ ((s.unit u).state = .idle → (s.clip c.val).state = .free → ∃ clips,
                exec i s = .next (({ s with
                    clips := clips
                    units := s.units.set u
                      { state := if cue = 0 then .recording else .armed, clip := some c, slot := some slot, wanted := wanted
                        cue := if cue = 0 then none else some cue, written := 0 } }).answered 18 seq .done)
                  ∧ ∀ d, ({ s with clips := clips } : State).clip d = if d = c.val then
                      { state := if cue = 0 then .filling else .reserved, length := 0, chain := [], uses := 0
                        filler := some (.unit u), short := false }
                    else s.clip d)

/-- CANCEL CAPTURE refuses an IDLE unit; it frees the clip of another, returns its chain, and queues CAPTURE CANCELLED after
its acknowledgement (R97, R158, R163). -/
def Obligations.CancelCaptureFreesTheClip : Prop :=
  ∀ (s : State) (seq : BitVec 8) (body : List Payload), s.canonical → s.captureSound → s.takesFresh 19 seq →
    (body.length ≠ 1 → exec (.cancelCapture seq body) s = .next (s.answered 19 seq .badLength))
      ∧ (∀ w, body = [w] → 1 < w.toNat → exec (.cancelCapture seq body) s = .next (s.answered 19 seq .badField))
      ∧ ∀ u : Fin 2, body = toPayloads [u.val] →
          ((s.unit u).state = .idle → exec (.cancelCapture seq body) s = .next (s.answered 19 seq .wrongState))
            ∧ ∀ c : Fin 512, (s.unit u).clip = some c → ∃ clips,
                exec (.cancelCapture seq body) s = .next
                    ((({ s with
                        clips := clips
                        units := s.units.set u CaptureUnit.idle
                        freeBlocks := s.freeBlocks ++ (s.clip c.val).chain }).answered 19 seq .done).offerEvent
                      (.captureCancelled u c.val .order))
                  ∧ ∀ d, ({ s with clips := clips } : State).clip d = if d = c.val then Clip.freed else s.clip d

/-- LOAD LAW replaces all 64 entries at once, or is refused and leaves the table as it stood; READ LAW returns the 64
entries in ascending order (R51, R52). -/
def Obligations.LoadAndReadLaw : Prop :=
  ∀ (s : State) (seq : BitVec 8) (body : List Payload),
    (s.takesFresh 20 seq →
      (body.length ≠ 64 → exec (.loadLaw seq body) s = .next (s.answered 20 seq .badLength))
        ∧ (body.length = 64 → (∃ w ∈ body, 65536 < w.toNat) →
            exec (.loadLaw seq body) s = .next (s.answered 20 seq .badField))
        ∧ (body.length = 64 → (∀ w ∈ body, w.toNat ≤ 65536) → ∃ law : Vector Nat 64,
            exec (.loadLaw seq body) s = .next (({ s with law := law }).answered 20 seq .done)
              ∧ law.toList = body.map BitVec.toNat))
      ∧ (s.takesOrders → exec (.readLaw seq body) s = .next
          (if body.length ≠ 0 then s.told 21 seq .badLength [] else s.told 21 seq .done s.law.toList))

/-! The receiver -/

/-- In SEARCH every position of the bits that arrive, with those held from before, is examined in turn, and the first frame
found good fixes the boundaries; while none is, the search waits at the first position whose frame is not whole. In CONFIRM a
frame is taken by the frame test. Table 7-1 up to LOCKED, with the last good sample set, the bit position of the next frame or
search, and every bit sent on unchanged (R126 to R128, R133, R134). A station that does not receive passes the bits (R132,
R140). SEARCH_CANDIDATE in CONFIRM or LOCKED and CONFIRM_FRAME in LOCKED change nothing, and CONFIRM_FRAME in SEARCH passes its
frame; bits beyond the candidate found are not taken (the model's choice, log entries 10, 11). -/
def Obligations.SearchAndConfirmFrames : Prop :=
  (∀ (s : State) (skipped candidate : List Bool), s.lock = .search → s.waitingBits ≤ 447 →
    let bits := skipped ++ candidate
    let stream := s.heldBits ++ bits
    (s.receiving → (∀ n, n + 448 ≤ stream.length → ¬(frameAt stream n).good) →
      exec (.searchCandidate skipped candidate) s = .next
        { s with
          nextBit := s.nextBit + (stream.length - 447), waitingBits := min stream.length 447, lineOut := s.lineAfter bits })
      ∧ (∀ (p : Nat) (more : List Bool), s.receiving → stream.length = p + 448 → (∀ n < p, ¬(frameAt stream n).good) →
          (frameAt stream p).good → exec (.searchCandidate skipped (candidate ++ more)) s = .next
            { s with
              lock := .confirm, confirm := 1, lastGood := (frameAt stream p).samples, nextBit := s.nextBit + p + 448
              waitingBits := 0, lineOut := lineOfBits (stream.drop p) })
      ∧ (¬s.receiving → exec (.searchCandidate skipped candidate) s = .next { s with lineOut := s.lineAfter bits }))
    ∧ ∀ (s : State) (line : LineFrame) (skipped candidate : List Bool),
      let f := frameOfLine line
      (s.lock ≠ .search → exec (.searchCandidate skipped candidate) s = .next s)
        ∧ (s.lock = .search → exec (.confirmFrame line) s = .next { s with lineOut := line })
        ∧ (s.lock = .locked → exec (.confirmFrame line) s = .next s)
        ∧ (s.lock = .confirm → f.good → s.confirm ≠ 7 →
            exec (.confirmFrame line) s = .next
              { s with confirm := s.confirm + 1, lastGood := f.samples, nextBit := s.nextBit + 448, lineOut := line })
        ∧ (s.lock = .confirm → f.good → s.confirm = 7 →
            exec (.confirmFrame line) s = .next
              (({ s with
                lock := .locked, confirm := 0, badRun := 0, frameCount := 0, lastGood := f.samples
                nextBit := s.nextBit + 448, lineOut := line } : State).offerEvent .linkLocked))
        ∧ (s.lock = .confirm → ¬f.good →
            exec (.confirmFrame line) s = .next
              { s with lock := .search, confirm := 0, nextBit := s.nextBit + 1, waitingBits := 447, lineOut := line })

/-- Eight good frames in a row, the first that a search finds and seven more at the fixed spacing, lock a receiving station:
frame count 0, LINK LOCKED offered, nothing else of the station touched (R127 to R129). The LOCK indicator is off before the
eighth and on from it (R142). -/
def Obligations.EightGoodFramesLock : Prop :=
  ∀ (s : State) (skipped candidate : List Bool) (p : Nat) (more : List LineFrame), s.lock = .search → s.receiving → s.waitingBits ≤ 447 →
    let stream := s.heldBits ++ skipped ++ candidate
    stream.length = p + 448 → (∀ n < p, ¬(frameAt stream n).good) → (frameAt stream p).good →
    (∀ line ∈ more, (frameOfLine line).good) → more.length = 7 →
    let start : State := { s with pending := .searchCandidate skipped candidate :: more.map Instr.confirmFrame }
    (∀ n < 8, ∃ u, Sys2Proof.core.run n start = .next u ∧ u.lockIndicator = false)
      ∧ ∃ t, Sys2Proof.core.run 8 start = .next t
        ∧ t.lock = .locked ∧ t.confirm = 0 ∧ t.badRun = 0 ∧ t.frameCount = 0 ∧ t.lockIndicator = true
        ∧ t.lastGood = (frameOfLine (more.getLastD 0)).samples ∧ t.nextBit = s.nextBit + p + 8 * 448 ∧ t.waitingBits = 0
        ∧ t.lineOut = more.getLastD 0 ∧ t.reportsAfter s [.linkLocked] ∧ t.pending = []
        ∧ t = { s with
            lock := t.lock, confirm := t.confirm, badRun := t.badRun, frameCount := t.frameCount, lastGood := t.lastGood
            nextBit := t.nextBit, waitingBits := t.waitingBits, lineOut := t.lineOut, reports := t.reports, lost := t.lost
            eventSeq := t.eventSeq, pending := t.pending }

/-- A received control word is classified by its kind and station field as Table 7-2 and R102 say: what travels on, what goes
to the Order Unit and which cue is acted on (R102, R137 to R139). At every arrival that keeps the lock the frame count
advances, and the frame sent is good and carries the word of the arbiter's precedence: pass-through, Cue Out, report, IDLE
(R129, R130, R134, R136, R193). -/
def Obligations.LockedArrivalCountsAndArbitrates : Prop :=
  (∀ (station : BitVec 5) (w : ControlWord),
    passesOn station w = travelsOn station w
      ∧ handedOrderWord station w = (if forOrderUnit station w then some w else none)
      ∧ (actedCue station w).map (fun c => (c.1.val, c.2.val))
        = if actsOnCue station w then [(w.toNat / 4096 % 4096, w.toNat % 4096)] else [])
    ∧ ∀ (s : State) (line : LineFrame), s.lock = .locked → s.reportsBounded →
      let f := frameOfLine line
      (f.good ∨ s.badRun < 2) →
      ∃ t, exec (.frameArrival line) s = .next t ∧ t.lock = .locked ∧ t.frameCount = s.frameCount + 1
        ∧ t.nextBit = s.nextBit + 448 ∧ t.badRun = (if f.good then 0 else s.badRun + 1)
        ∧ t.lastGood = (if f.good then f.samples else s.lastGood)
        ∧ (frameOfLine t.lineOut).good
        ∧ (frameOfLine t.lineOut).control
          = (s.slotOutcome (s.frameCount + 1) (if f.good then some f.control else none)).1
        ∧ t.station = s.station ∧ t.confirm = s.confirm ∧ t.resetLine = s.resetLine

/-- FRAME_ARRIVAL on a sound station with splices running, no splice ending, no waiting order, no trigger due, no unit
RECORDING, no deadline and no order word for the station: every busy lane advances by one frame and sets its phase; each owned
slot carries the mix of its clip sample and its programme sample at the lane's fade index, each other slot its programme
sample; the outgoing word, the Cue Out list and the report in emission follow the arbiter; a cue word that is acted on and
mapped, or awaited by an ARMED unit, enters the Trigger Queue, or raises MISSED CUE when 16 wait; a bad frame is concealed with the last good samples (R23,
R24, R46, R60, R63, R111, R113, R134 to R136, R191, R193). -/
def Obligations.ArrivalRunsTheSplices : Prop :=
  ∀ (s : State) (line : LineFrame) (samples : SampleSet) (word : Option ControlWord) (run : Nat),
    let f := frameOfLine line
    s.Sound → s.lock = .locked → (∀ a, s.assembly = some a → s.frameCount + 1 ≠ a.start + 2048) →
    (∀ u, (s.unit u).state ≠ .recording) →
    (∀ e ∈ s.triggers, e.fallsDue (s.frameCount + 1) = false) →
    (∀ i r, (s.lane i).copy = some r → (s.lane i).waiting = none ∧ (s.lane i).k + 1 < (s.lane i).total) →
    (f.good ∧ samples = f.samples ∧ word = some f.control ∧ run = 0
      ∨ ¬f.good ∧ s.badRun < 2 ∧ samples = s.lastGood ∧ word = none ∧ run = s.badRun + 1) →
    (∀ w, word = some w → ¬forOrderUnit s.station w) →
    let out := s.slotOutcome (s.frameCount + 1) word
    let missed := queueMissing (s.heardCue word) s.triggers
    (missed = [] ∨ out.2.2.1 = s.reports) →
    exec (.frameArrival line) s = .next
      (({ s with
        frameCount := s.frameCount + 1
        nextBit := s.nextBit + 448
        badRun := run
        lastGood := samples
        choices := s.choices + 1
        lanes := Vector.ofFn fun i =>
          match (s.lane i).copy with
          | none => s.lane i
          | some r => { s.lane i with k := (s.lane i).k + 1, phase := phaseAt r (s.lane i).total ((s.lane i).k + 1) }
        lineOut := composeFrame
          (Vector.ofFn fun j =>
            match s.slots[j] with
            | none => samples[j]
            | some i =>
              match (s.lane i).copy with
              | none => samples[j]
              | some r =>
                match r.voices.find? fun v => v.slot == j with
                | none => samples[j]
                | some v =>
                  mixSample s (s.readClipSample v.clip.val (r.start + ((s.lane i).k + 1) % (s.lane i).effLen)) samples[j]
                    (fadeIndex r (s.lane i).total ((s.lane i).k + 1)) r.under.val)
          out.1
        triggers := queueHearing (s.frameCount + 1) (s.heardCue word) s.triggers
        cueOut := out.2.1
        reports := out.2.2.1
        wordPos := out.2.2.2 } : State).offerEvents missed)

/-- A unit that is RECORDING, or that an ARMED unit's awaited cue starts at this arrival, writes the sample of its input slot,
received or concealed, at the position of samples written, claiming the head of the Free Block List at a multiple of 256, and
counts it; the sample reads back and every other place of the memory reads as before. When that is the wanted length the
capture completes: clip READY, unit IDLE, CAPTURE DONE COMPLETE (R92 to R95, R135). When the claim finds the list empty nothing
is written: the clip becomes READY and short, or FREE when it holds no sample, the unit IDLE, and CAPTURE DONE STORE FULL is
queued (R96). The lanes are IDLE, what falls due is unmapped cues, the other unit is IDLE, and no order word comes for the
station. -/
def Obligations.ArrivalRecordsOneSample : Prop :=
  ∀ (s : State) (line : LineFrame) (u : Fin 2) (c : Fin 512) (slot : Fin 16) (samples : SampleSet)
    (word : Option ControlWord),
    let f := frameOfLine line
    let v := s.unit u
    s.Sound → s.lock = .locked → (∀ i, s.lane i = Lane.idle) → (∀ x, x ≠ u → s.unit x = CaptureUnit.idle) →
    (∀ e ∈ s.triggers, e.fallsDue (s.frameCount + 1) = true → ∃ n, e.kind = .cue n ∧ n ∉ s.cueMap.map CueMapEntry.cue) →
    (v.state = .recording
      ∨ v.state = .armed ∧ ∃ e ∈ s.triggers, e.fallsDue (s.frameCount + 1) = true ∧ ∃ n, e.kind = .cue n ∧ v.cue = some n) →
    v.clip = some c → v.slot = some slot →
    (f.good ∧ samples = f.samples ∧ word = some f.control
      ∨ ¬f.good ∧ s.badRun < 2 ∧ samples = s.lastGood ∧ word = none) →
    (∀ w, word = some w → ¬forOrderUnit s.station w) →
    let q := v.written
    let chain := (s.clip c.val).chain ++ if q % 256 = 0 then s.freeBlocks.take 1 else []
    let started : List Event := if v.state = .armed then [.captureStarted u c.val] else []
    let alone := (∀ w, word = some w → ¬actsOnCue s.station w)
      ∧ (∀ a, s.assembly = some a → s.frameCount + 1 ≠ a.start + 2048)
      ∧ (s.slotOutcome (s.frameCount + 1) word).2.2.1 = s.reports
    ((q % 256 = 0 → s.freeBlocks ≠ []) →
      ∃ t, exec (.frameArrival line) s = .next t
        ∧ t.unit u = (if q + 1 = v.wanted then CaptureUnit.idle
            else { v with state := .recording, cue := none, written := q + 1 })
        ∧ (∀ x, x ≠ u → t.unit x = s.unit x)
        ∧ t.clip c.val = (if q + 1 = v.wanted then
            { s.clip c.val with state := .ready, length := q + 1, chain := chain, filler := none, short := false }
            else { s.clip c.val with state := .filling, length := q + 1, chain := chain })
        ∧ (∀ d, d ≠ c.val → t.clip d = s.clip d)
        ∧ t.freeBlocks = (if q % 256 = 0 then s.freeBlocks.drop 1 else s.freeBlocks)
        ∧ t.readClipSample c.val q = samples[slot]
        ∧ (∀ a, a ≠ sampleAddress (chain.getD (q / 256) 0) (q % 256) →
            Memory.read t.memory a = Memory.read s.memory a)
        ∧ (alone → t.triggers = s.triggers.filter (fun e => !e.fallsDue (s.frameCount + 1))
            ∧ t.reportsAfter s (started ++ if q + 1 = v.wanted then [.captureDone u c.val v.wanted .complete] else [])))
      ∧ (q % 256 = 0 → s.freeBlocks = [] →
        ∃ t, exec (.frameArrival line) s = .next t
          ∧ t.unit u = CaptureUnit.idle ∧ (∀ x, x ≠ u → t.unit x = s.unit x)
          ∧ t.clip c.val = (if q = 0 then Clip.freed else { s.clip c.val with state := .ready, filler := none, short := true })
          ∧ (∀ d, d ≠ c.val → t.clip d = s.clip d) ∧ t.freeBlocks = [] ∧ t.memory = s.memory
          ∧ (alone → t.triggers = s.triggers.filter (fun e => !e.fallsDue (s.frameCount + 1))
              ∧ t.reportsAfter s (started ++ [.captureDone u c.val q .storeFull])))

/-- The third bad frame in a row is the link loss: SEARCH one bit after the frame's start, the frame passed unchanged, the LOCK
indicator off, every block's loss rule applied, the reports of the loss in the order of R190 with LINK LOST first, and what
R131 names kept (R44, R84, R98, R122, R130, R131, R142, R150, R190, R192). -/
def Obligations.ThirdBadFrameLosesTheLink : Prop :=
  ∀ (s : State) (line : LineFrame), s.Sound → s.lock = .locked → ¬(frameOfLine line).good → s.badRun = 2 →
    ∃ t, exec (.frameArrival line) s = .next t
      ∧ t.lock = .search ∧ t.confirm = 0 ∧ t.badRun = 0 ∧ t.frameCount = s.frameCount + 1 ∧ t.nextBit = s.nextBit + 1
      ∧ t.waitingBits = 447 ∧ s.lockIndicator = true ∧ t.lockIndicator = false ∧ t.lineOut = line ∧ t.wordPos = 0 ∧ t.quiet
      ∧ (∀ c, t.clip c =
          if (s.clip c).state = .doomed ∨ (s.clip c).state = .reserved then Clip.freed
          else if (s.clip c).state = .filling ∧ (s.clip c).filler ≠ some .management then
            if (s.clip c).length = 0 then Clip.freed
            else { s.clip c with state := .ready, filler := none, short := true }
          else { s.clip c with uses := 0 })
      ∧ t.freeBlocks = s.freeBlocks ++ s.doomedClips.flatMap (fun c => (s.clip c).chain)
      ∧ t.reportsAfter s
          ([.linkLost (s.frameCount + 1)] ++ s.abandonReports .linkLost ++ s.doomedClips.map Event.clipFreed
            ++ ((List.finRange 2).flatMap fun u =>
                match (s.unit u).state with
                | .idle => []
                | .armed => [.captureCancelled u (s.unit u).clipNumber .linkLost]
                | .recording => [.captureDone u (s.unit u).clipNumber (s.unit u).written .linkLost])
            ++ match s.assembly with
              | none => []
              | some a => [.orderDiscarded a.seq .linkLost])
      ∧ t = { s with
          lock := t.lock, confirm := t.confirm, badRun := t.badRun, frameCount := t.frameCount, nextBit := t.nextBit
          waitingBits := t.waitingBits, lineOut := t.lineOut, wordPos := t.wordPos, lanes := t.lanes, slots := t.slots, triggers := t.triggers
          cueOut := t.cueOut, units := t.units, assembly := t.assembly, clips := t.clips, freeBlocks := t.freeBlocks
          reports := t.reports, lost := t.lost, eventSeq := t.eventSeq }

/-! Fades, the mix and the splice -/

/-- The mixing arithmetic of R61: both products exact, the sum divided by 65,536 toward zero, the quotient limited to the
24-bit range. -/
def Obligations.MixFollowsTheArithmetic : Prop :=
  ∀ (s : State) (clip programme : Sample) (index under : Fin 64),
    let gain : Nat → Int := fun n => (s.law.toList.getD n 0 : Nat)
    let sum := clip.toInt * gain index.val + programme.toInt * gain (max (63 - index.val) under.val)
    (mixSample s clip programme index.val under.val).toInt
      = if 8388607 < sum.tdiv 65536 then 8388607 else if sum.tdiv 65536 < -8388608 then -8388608 else sum.tdiv 65536

/-- The release recompute keeps the fade index continuous and makes it fall steadily to the new end (R58). -/
def Obligations.ReleaseFallsSteadily : Prop :=
  ∀ (r : Record) (total c : Nat), r.voices ≠ [] → 1 ≤ r.rOut.val → c < total →
    let j := fadeIndex r total c
    let fresh := recomputedTotal r total c
    fresh ≤ total ∧ fresh = c + j * r.rOut.val + 1
      ∧ downEnvelope r.rOut fresh c = j ∧ j ≤ upEnvelope r.rIn c ∧ fadeIndex r fresh c = j
      ∧ (∀ n, 1 ≤ n → c + n < fresh →
          fadeIndex r fresh (c + n) = j - (n + r.rOut.val - 1) / r.rOut.val
            ∧ fadeIndex r fresh (c + n) = downEnvelope r.rOut fresh (c + n) ∧ phaseAt r fresh (c + n) = .fadeOut)
      ∧ (∀ k, c ≤ k → k < fresh → fresh ≤ k + r.rOut.val → fadeIndex r fresh k = 0)
      ∧ phaseAt r fresh c = (if j = 63 then .onAir else if upEnvelope r.rIn c = j then .fadeIn else .fadeOut)
      ∧ (downEnvelope r.rOut total c = (total - 1 - c) / r.rOut.val → downEnvelope r.rOut total c ≤ upEnvelope r.rIn c →
          total ≤ fresh + (r.rOut.val - 1))
      ∧ (total ≤ c + j * r.rOut.val + 1 → fresh = total) ∧ (j = 0 → fresh = c + 1)

/-- A splice with total T mixes its frames one by one and ends at the arrival that brings k to T (R23, R24): with no
waiting order and no trigger, `n` arrivals of a lane's steps take k to k + n while that is below T, and the arrival that
reaches T makes the end of R29. At a FRAME_ARRIVAL a busy lane advances k first, applies its waiting RELEASE or ABORT at that k,
and then ends when k is the total (R20, R23, R41, R42): a RELEASE discards the pending trigger, marks and recomputes, a RELEASE
at the natural end makes it a RELEASED one, an ABORT hands on no end cue and follows nothing. An end cue is due from the count
of this arrival and is offered to the Trigger Queue ahead of the arrival's cue word (R31, R113, R118); the frame sent is mixed
from the lane as the arrival leaves it. The other lanes are IDLE, no unit is RECORDING, and nothing falls due. -/
def Obligations.SpliceRunsItsTotal : Prop :=
  (∀ (w : LaneWork) (i : Fin 8) (n : Nat),
    let l := w.st.lane i
    l.phase ≠ .idle → l.waiting = none →
    (l.k + n < l.total → (laneSteps [] i)^[n] w = w.setLane i { l with k := l.k + n })
      ∧ (l.k + n + 1 = l.total → (laneSteps [] i)^[n + 1] w = endRecord i (w.setLane i { l with k := l.total })))
    ∧ ∀ (s : State) (line : LineFrame) (i : Fin 8) (r : Record) (samples : SampleSet) (word : Option ControlWord) (run : Nat),
      let f := frameOfLine line
      s.Sound → s.lock = .locked → (∀ a, s.assembly = some a → s.frameCount + 1 ≠ a.start + 2048) →
      (∀ u, (s.unit u).state ≠ .recording) → (∀ e ∈ s.triggers, e.fallsDue (s.frameCount + 1) = false) →
      (s.lane i).copy = some r → (∀ j, j ≠ i → s.lane j = Lane.idle) →
      (f.good ∧ samples = f.samples ∧ word = some f.control ∧ run = 0
        ∨ ¬f.good ∧ s.badRun < 2 ∧ samples = s.lastGood ∧ word = none ∧ run = s.badRun + 1) →
      (∀ w, word = some w → ¬forOrderUnit s.station w) →
      let out := s.slotOutcome (s.frameCount + 1) word
      out.2.2.1 = s.reports →
      let l := s.lane i
      let k := l.k + 1
      let marks : Bool := decide (l.waiting = some .release ∧ l.mark = .unmarked)
      let mark : EndMark := if marks then .released else l.mark
      let total := if marks = true ∧ k < l.total then
          (if r.voices = [] ∨ r.rOut.val = 0 then k else min l.total (k + fadeIndex r l.total k * r.rOut.val + 1))
        else l.total
      let atEnd := l.waiting = some .abort ∨ k = total
      let superseded : List Event := match l.waiting, l.pending with
        | some .release, some p => [.superseded i p.record]
        | _, _ => []
      let reason : EndReason := if l.waiting = some .abort then .aborted else match mark with
        | .unmarked => .normal
        | .released => .released
        | .cut => .cut
      let ended : List Event := if r.reportEnd then [.spliceEnded i (l.source.getD 0) r.tag reason] else []
      let cues := if k < total ∨ l.waiting = some .abort ∨ mark = .cut then [] else r.endCue.toList
      let follows : Option (Fin 256) := match l.waiting, l.pending with
        | some _, _ => none
        | none, some p => some p.record
        | none, none => if mark = .unmarked then r.next else none
      ∃ (t u : State) (missed dropped : List Event), exec (.frameArrival line) s = .next t
        ∧ let base : State :=
            { s with
              frameCount := s.frameCount + 1, nextBit := s.nextBit + 448, badRun := run, lastGood := samples
              choices := s.choices + 1, cueOut := out.2.1, wordPos := out.2.2.2, lineOut := t.lineOut }
          let raised := missed ++ queueMissing (s.heardCue word) u.triggers ++ dropped
          base.endCueHandled u (s.frameCount + 1) cues missed dropped ∧ t.cueOut = u.cueOut
            ∧ t.triggers = queueHearing (s.frameCount + 1) (s.heardCue word) u.triggers
            ∧ t.lineOut = composeFrame (t.mixOf samples) out.1
            ∧ (¬atEnd → t = ({ base with
                triggers := t.triggers
                lanes := s.lanes.set i { l with
                  k := k, total := total, mark := mark, waiting := none, phase := phaseAt r total k
                  pending := if l.waiting = none then l.pending else none } } : State).offerEvents (superseded ++ raised))
            ∧ (atEnd → follows = none → base.spliceOver t i r (superseded ++ ended) raised)
            ∧ ∀ index, atEnd → follows = some index →
                (∀ why, loadTest s i index = .error why → base.spliceOver t i r (ended ++ [.chainEnded i index why]) raised)
                  ∧ ∀ next, loadTest s i index = .ok next → base.spliceFollowed t i r index next
                      (ended ++ if next.reportStart then [.spliceStarted i index next.tag] else []) raised

/-- The tests of a load in their order, and the effective length of a load that passes them: the largest number, not more
than N, for which every voice has a clip sample at each frame (R10, R11, R25). -/
def Obligations.LoadTestsInOrder : Prop :=
  ∀ (s : State) (i : Fin 8) (index : Fin 256), s.tableSound →
    (s.record index.val = none → loadTest s i index = .error .emptyRecord)
      ∧ ∀ r, s.record index.val = some r →
          let unready := ∃ v ∈ r.voices, (s.clip v.clip.val).state ≠ .ready
          let void := ∃ v ∈ r.voices, (s.clip v.clip.val).length ≤ r.start
          let conflict := ∃ v ∈ r.voices, ∃ owner, s.slots[v.slot] = some owner ∧ owner ≠ i
          (unready → loadTest s i index = .error .clipNotReady)
            ∧ (¬unready → void → loadTest s i index = .error .void)
            ∧ (¬unready → ¬void → conflict → loadTest s i index = .error .slotConflict)
            ∧ (¬unready → ¬void → ¬conflict → loadTest s i index = .ok r)
            ∧ (¬void → 1 ≤ effectiveLength s r ∧ effectiveLength s r ≤ r.length
                ∧ (∀ v ∈ r.voices, r.start + effectiveLength s r ≤ (s.clip v.clip.val).length)
                ∧ (effectiveLength s r = r.length
                  ∨ ∃ v ∈ r.voices, r.start + effectiveLength s r = (s.clip v.clip.val).length))

/-! The events of the frame work, each as its own command (log entry 5) -/

/-- TIMEOUT discards an order whose deadline, 2048 frames after its HEAD, is the present frame count or the next (R148; that
the row reaches ahead to the next count is log entry 5). A FRAME_ARRIVAL that brings the deadline is the same arrival with
nothing in assembly, with ORDER DISCARDED TIMEOUT offered after the reports of its other work (R148, R187); it is stated where
no report leaves at that arrival, since R187 leaves the order of the two open. -/
def Obligations.TimeoutDiscardsTheOrder : Prop :=
  ∀ s : State, s.lock = .locked →
    (s.assembly = none → exec .timeout s = .next s)
      ∧ (∀ a, s.assembly = some a → exec .timeout s = .next
          (if s.frameCount = a.start + 2048 ∨ s.frameCount = a.start + 2047 then
            ({ s with assembly := none } : State).offerEvent (.orderDiscarded a.seq .timeout)
           else s))
      ∧ ∀ (a : Assembly) (line : LineFrame) (word : Option ControlWord), s.assembly = some a →
          s.frameCount + 1 = a.start + 2048 →
          ((frameOfLine line).good ∧ word = some (frameOfLine line).control
            ∨ ¬(frameOfLine line).good ∧ s.badRun < 2 ∧ word = none) →
          (∀ w, word = some w → forOrderUnit s.station w → w.toNat / 536870912 = 2 → w.toNat % 256 ≤ 64) →
          (s.slotOutcome (s.frameCount + 1) word).2.2.1 = s.reports →
          ∃ u, exec (.frameArrival line) { s with assembly := none } = .next u
            ∧ exec (.frameArrival line) s = .next (u.offerEvent (.orderDiscarded a.seq .timeout))

/-- APPLY_RELEASE on a sound station: a pending trigger is superseded, and a splice with no end mark is marked RELEASED and
gets the total of the recompute; when that is the present k the record ends at once, RELEASED, its end cue handed to the
Trigger Unit and its link not followed (R41, R57, R111, R113, R118, R119). A lane with no waiting RELEASE is unchanged, and the
row applies the order at the present k (the model's choice, log entry 5). -/
def Obligations.ApplyReleaseStartsTheFall : Prop :=
  ∀ (s : State) (i : Fin 8), s.Sound → s.lock = .locked →
    let l := s.lane i
    (l.waiting ≠ some .release → exec (.applyRelease i) s = .next s)
      ∧ ∀ r, l.copy = some r → l.waiting = some .release →
          let superseded : List Event := match l.pending with
            | none => []
            | some p => [.superseded i p.record]
          let kept : Lane := { l with pending := none, waiting := none }
          let falling : Lane :=
            { kept with mark := .released, total := min l.total (l.k + fadeIndex r l.total l.k * r.rOut.val + 1) }
          (l.mark ≠ .unmarked → exec (.applyRelease i) s = .next
              (({ s with lanes := s.lanes.set i kept } : State).offerEvents superseded))
            ∧ (l.mark = .unmarked → r.voices ≠ [] → r.rOut.val ≠ 0 → exec (.applyRelease i) s = .next
                (({ s with lanes := s.lanes.set i falling } : State).offerEvents superseded))
            ∧ (l.mark = .unmarked → (r.voices = [] ∨ r.rOut.val = 0) →
                ∃ t missed dropped, exec (.applyRelease i) s = .next t ∧ s.endCueHandled t s.frameCount r.endCue.toList missed dropped
                  ∧ s.spliceOver t i r
                      (superseded ++ if r.reportEnd then [.spliceEnded i (l.source.getD 0) r.tag .released] else [])
                      (missed ++ dropped))

/-- APPLY_ABORT on a sound station: the record ends at once, its claims given back, with SPLICE ENDED ABORTED if asked, no
end cue and no following record (R42). A lane with no waiting ABORT is unchanged. -/
def Obligations.ApplyAbortEndsTheSplice : Prop :=
  ∀ (s : State) (i : Fin 8), s.Sound → s.lock = .locked →
    ((s.lane i).waiting ≠ some .abort → exec (.applyAbort i) s = .next s)
      ∧ ∀ r, (s.lane i).copy = some r → (s.lane i).waiting = some .abort →
          ∃ t, exec (.applyAbort i) s = .next t ∧ t.triggers = s.triggers ∧ t.cueOut = s.cueOut
            ∧ s.spliceOver t i r
                (if r.reportEnd then [.spliceEnded i ((s.lane i).source.getD 0) r.tag .aborted] else []) []

/-- RECORD_END on a sound station, nothing following: the claims are given back, SPLICE ENDED carries the reason of the end
mark, and unless the mark is CUT the end cue goes to the Trigger Queue if its number is mapped or awaited and there is
room, and to the Cue Out list if it is forwarded and there is room, due its offset after the arrival that brings k to the
total (R9, R29, R31, R111, R113, R118, R119). A lane whose next frame is not its total is unchanged; that the row does this
alone, at the next count, is the model's choice (log entry 5). -/
def Obligations.RecordEndReleasesAndRaises : Prop :=
  ∀ (s : State) (i : Fin 8), s.Sound → s.lock = .locked →
    let l := s.lane i
    (l.k + 1 ≠ l.total → exec (.recordEnd i) s = .next s)
      ∧ ∀ r, l.copy = some r → l.k + 1 = l.total → l.pending = none → (l.mark ≠ .unmarked ∨ r.next = none) →
          let cues := if l.mark = .cut then [] else r.endCue.toList
          let reason : EndReason := match l.mark with
            | .unmarked => .normal
            | .released => .released
            | .cut => .cut
          ∃ t missed dropped, exec (.recordEnd i) s = .next t
            ∧ s.spliceOver t i r (if r.reportEnd then [.spliceEnded i (l.source.getD 0) r.tag reason] else [])
                (missed ++ dropped)
            ∧ s.endCueHandled t (s.frameCount + 1) cues missed dropped

/-- RECORD_END on a sound station with a record to follow, the pending one or, under no end mark, the linked one: claims are
given back, the end cue is handed on unless the mark is CUT, SPLICE ENDED carries the reason of the end mark if asked for, and
the record is loaded at the same arrival, or the chain ends with the reason of the test that fails (Table 2-2, R7, R27, R29).
The load finds the ended record's own slots free, and a clip whose last use the end has just given back still DOOMED (R30). The
row makes the end alone, at the next count (the model's choice, log entry 5). -/
def Obligations.RecordEndFollowsTheLink : Prop :=
  ∀ (s : State) (i : Fin 8) (r : Record) (index : Fin 256), s.Sound → s.lock = .locked →
    let l := s.lane i
    l.copy = some r → l.k + 1 = l.total →
    (l.pending.map PendingTrigger.record = some index
      ∨ l.pending = none ∧ l.mark = .unmarked ∧ r.next = some index) →
    let cues := if l.mark = .cut then [] else r.endCue.toList
    let reason : EndReason := match l.mark with
      | .unmarked => .normal
      | .released => .released
      | .cut => .cut
    let ended : List Event := if r.reportEnd then [.spliceEnded i (l.source.getD 0) r.tag reason] else []
    (∀ why, loadTest s i index = .error why → ∃ t missed dropped, exec (.recordEnd i) s = .next t
        ∧ s.endCueHandled t (s.frameCount + 1) cues missed dropped
        ∧ s.spliceOver t i r (ended ++ [.chainEnded i index why]) (missed ++ dropped))
      ∧ (∀ next, loadTest s i index = .ok next → ∃ t missed dropped, exec (.recordEnd i) s = .next t
          ∧ s.endCueHandled t (s.frameCount + 1) cues missed dropped
          ∧ s.spliceFollowed t i r index next (ended ++ if next.reportStart then [.spliceStarted i index next.tag] else [])
              (missed ++ dropped))
      ∧ ∀ next, s.record index.val = some next →
          ((∀ v ∈ next.voices, (s.clip v.clip.val).state = .ready ∧ next.start < (s.clip v.clip.val).length
              ∧ (s.slots[v.slot] = none ∨ v.slot ∈ r.voices.map Voice.slot)) → loadTest s i index = .ok next)
            ∧ ((∃ v ∈ next.voices, (s.clip v.clip.val).state = .doomed) → loadTest s i index = .error .clipNotReady)

/-- TRIGGER_FALLS_DUE with one entry due, delivered to one lane: an IDLE lane loads its record under any policy; a busy lane
queues it, cuts for it or drops it by its policy, and a CUT that leaves no frame to fade ends the record at once and loads the
new one (R26, R27, R35 to R39, R114 to R116). Of two triggers that load records naming one slot at one arrival, in the row and
in a FRAME_ARRIVAL, the one of the lower-numbered lane gets it, whatever their order in the queue (R22). -/
def Obligations.DueTriggerReachesItsLane : Prop :=
  (∀ (s : State) (e : TriggerEntry) (rest : List TriggerEntry) (i : Fin 8) (index : Fin 256) (policy : Policy)
    (cue : Fin 4096), s.Sound → s.lock = .locked → s.triggers = e :: rest → e.fallsDue (s.frameCount + 1) = true →
    (∀ x ∈ rest, x.fallsDue (s.frameCount + 1) = false) →
    (e.kind = .take i index policy ∧ cue = 0
      ∨ e.kind = .cue cue ∧ (∃ m ∈ s.cueMap, m.cue = cue ∧ m.lane = i ∧ m.record = index ∧ m.policy = policy)
        ∧ ∀ u, ¬((s.unit u).state = .armed ∧ (s.unit u).cue = some cue)) →
    let l := s.lane i
    let left : State := { s with triggers := rest }
    (l.phase = .idle → ∀ reason, loadTest s i index = .error reason →
        exec .triggerFallsDue s = .next (left.offerEvent (.chainEnded i index reason)))
      ∧ (l.phase = .idle → ∀ r, loadTest s i index = .ok r → ∃ t, exec .triggerFallsDue s = .next t
          ∧ (∀ j, t.lane j = if j = i then Lane.loaded index r (effectiveLength s r) else s.lane j)
          ∧ (∀ j : Fin 16, t.slots[j] = if ∃ v ∈ r.voices, v.slot = j then some i else s.slots[j])
          ∧ (∀ c, t.clip c = { s.clip c with uses := (s.clip c).uses + r.voices.countP fun v => v.clip.val == c })
          ∧ t.reportsAfter s (if r.reportStart then [.spliceStarted i index r.tag] else [])
          ∧ t = { left with lanes := t.lanes, slots := t.slots, clips := t.clips, reports := t.reports, lost := t.lost
                            eventSeq := t.eventSeq })
      ∧ (l.phase ≠ .idle → policy = .skip → exec .triggerFallsDue s = .next left)
      ∧ (l.phase ≠ .idle → policy = .queue → l.pending = none → exec .triggerFallsDue s = .next
          { left with lanes := s.lanes.set i { l with pending := some { record := index, kind := .queued } } })
      ∧ (l.phase ≠ .idle → policy = .queue → l.pending ≠ none → exec .triggerFallsDue s = .next
          (left.offerEvent (.missedCue cue (some i))))
      ∧ (l.phase ≠ .idle → policy = .cut → ∀ r, l.copy = some r → (l.mark ≠ .unmarked ∨ r.voices ≠ [] ∧ r.rOut.val ≠ 0) →
          let cut : Lane :=
            { l with
              pending := some { record := index, kind := .cut }
              mark := .cut
              total := if l.mark = .unmarked then min l.total (l.k + fadeIndex r l.total l.k * r.rOut.val + 1)
                else l.total }
          exec .triggerFallsDue s = .next
            (({ left with lanes := s.lanes.set i cut } : State).offerEvents
              (match l.pending with
               | none => []
               | some p => [.superseded i p.record])))
      ∧ (l.phase ≠ .idle → policy = .cut → ∀ r, l.copy = some r → l.mark = .unmarked → (r.voices = [] ∨ r.rOut.val = 0) →
          let shown : List Event := (match l.pending with
            | none => []
            | some p => [.superseded i p.record])
            ++ if r.reportEnd then [.spliceEnded i (l.source.getD 0) r.tag .cut] else []
          (∀ why, loadTest s i index = .error why → ∃ t, exec .triggerFallsDue s = .next t
              ∧ t.triggers = rest ∧ t.cueOut = s.cueOut ∧ s.spliceOver t i r (shown ++ [.chainEnded i index why]) [])
            ∧ ∀ next, loadTest s i index = .ok next → ∃ t, exec .triggerFallsDue s = .next t
                ∧ t.triggers = rest ∧ t.cueOut = s.cueOut
                ∧ s.spliceFollowed t i r index next
                    (shown ++ if next.reportStart then [.spliceStarted i index next.tag] else []) []))
    ∧ ∀ (s : State) (line : LineFrame) (word : Option ControlWord) (e f : TriggerEntry) (i j : Fin 8) (m n : Fin 256)
        (p q : Policy) (a b : Record), s.Sound → s.lock = .locked → i < j → (∀ x, s.lane x = Lane.idle) →
      (∀ u, s.unit u = CaptureUnit.idle) → (∀ o, s.assembly = some o → s.frameCount + 1 ≠ o.start + 2048) →
      s.triggers = [e, f] ∨ s.triggers = [f, e] → e.kind = .take i m p → f.kind = .take j n q →
      e.fallsDue (s.frameCount + 1) = true → f.fallsDue (s.frameCount + 1) = true →
      loadTest s i m = .ok a → loadTest s j n = .ok b → (∃ v ∈ a.voices, ∃ w ∈ b.voices, v.slot = w.slot) →
      ((frameOfLine line).good ∧ word = some (frameOfLine line).control
        ∨ ¬(frameOfLine line).good ∧ s.badRun < 2 ∧ word = none) →
      (∀ w, word = some w → ¬forOrderUnit s.station w ∧ ¬actsOnCue s.station w) →
      (s.slotOutcome (s.frameCount + 1) word).2.2.1 = s.reports →
      ∀ c ∈ [Instr.triggerFallsDue, .frameArrival line], ∃ t, exec c s = .next t
        ∧ (∀ x, t.lane x = if x = i then Lane.loaded m a (effectiveLength s a) else Lane.idle)
        ∧ (∀ x : Fin 16, t.slots[x] = if ∃ v ∈ a.voices, v.slot = x then some i else none)
        ∧ t.triggers = []
        ∧ t.reportsAfter s ((if a.reportStart then [.spliceStarted i m a.tag] else []) ++ [.chainEnded j n .slotConflict])

/-- TRIGGER_FALLS_DUE with one CUE entry due: every capture unit ARMED on its number becomes RECORDING with its clip FILLING
and queues CAPTURE STARTED, unit 0 first, whether or not the Cue Map holds the number; an entry nothing wants is dropped without
report (R92, R115). When the map holds the number the lane does what a TAKE of the mapped lane, record and policy would have it
do at that moment, but that MISSED CUE carries the cue number: lane delivery and unit delivery are independent (R115, R116). -/
def Obligations.DueCueStartsArmedUnits : Prop :=
  ∀ (s : State) (e : TriggerEntry) (rest : List TriggerEntry) (cue : Fin 4096), s.Sound → s.lock = .locked →
    s.triggers = e :: rest → e.fallsDue (s.frameCount + 1) = true → (∀ x ∈ rest, x.fallsDue (s.frameCount + 1) = false) →
    e.kind = .cue cue →
    let awaits : Fin 2 → Prop := fun u => (s.unit u).state = .armed ∧ (s.unit u).cue = some cue
    let started : List Event := (List.finRange 2).flatMap fun u =>
      if (s.unit u).state = .armed ∧ (s.unit u).cue = some cue then [.captureStarted u (s.unit u).clipNumber] else []
    ∃ t, exec .triggerFallsDue s = .next t
      ∧ (∀ u, (awaits u → t.unit u = { s.unit u with state := .recording, cue := none })
          ∧ (¬awaits u → t.unit u = s.unit u))
      ∧ (cue ∉ s.cueMap.map CueMapEntry.cue →
          (∀ c, ((∃ u, awaits u ∧ (s.unit u).clipNumber = c) → t.clip c = { s.clip c with state := .filling })
            ∧ ((¬∃ u, awaits u ∧ (s.unit u).clipNumber = c) → t.clip c = s.clip c))
          ∧ t.reportsAfter s started ∧ ((∀ u, ¬awaits u) → t = { s with triggers := rest })
          ∧ t = { s with triggers := rest, units := t.units, clips := t.clips, reports := t.reports, lost := t.lost
                         eventSeq := t.eventSeq })
      ∧ ∀ m ∈ s.cueMap, m.cue = cue → ∃ (a : State) (es : List Event),
          exec .triggerFallsDue { s with triggers := { e with kind := .take m.lane m.record m.policy } :: rest } = .next a
            ∧ (∀ c, ((∃ u, awaits u ∧ (s.unit u).clipNumber = c) → t.clip c = { a.clip c with state := .filling })
              ∧ ((¬∃ u, awaits u ∧ (s.unit u).clipNumber = c) → t.clip c = a.clip c))
            ∧ a.reportsAfter s es
            ∧ t.reportsAfter s ((es.map fun x => if x = .missedCue 0 (some m.lane) then .missedCue cue (some m.lane) else x)
                ++ started)
            ∧ t = { a with units := t.units, clips := t.clips, reports := t.reports, lost := t.lost, eventSeq := t.eventSeq }

/-- CAPTURE_COMPLETE: a unit that reaches its wanted length by one more sample writes it, the last good sample of its input
slot, and completes: clip READY with its wanted length, no filler and no short flag, unit IDLE, CAPTURE DONE COMPLETE
(R94, R95). A unit that is not there is unchanged. -/
def Obligations.CaptureCompletesAtItsLength : Prop :=
  ∀ (s : State) (u : Fin 2), s.Sound → s.lock = .locked →
    ((s.unit u).state ≠ .recording ∨ (s.unit u).written + 1 ≠ (s.unit u).wanted → exec (.captureComplete u) s = .next s)
      ∧ ∀ (c : Fin 512) (slot : Fin 16), (s.unit u).state = .recording → (s.unit u).clip = some c →
          (s.unit u).slot = some slot → (s.unit u).written + 1 = (s.unit u).wanted →
          let q := (s.unit u).written
          (q % 256 = 0 → s.freeBlocks ≠ []) →
          let chain := (s.clip c.val).chain ++ if q % 256 = 0 then s.freeBlocks.take 1 else []
          ∃ t, exec (.captureComplete u) s = .next t
            ∧ t.units = s.units.set u CaptureUnit.idle
            ∧ t.clip c.val = { s.clip c.val with
                state := .ready, length := (s.unit u).wanted, chain := chain, filler := none, short := false }
            ∧ (∀ d, d ≠ c.val → t.clip d = s.clip d)
            ∧ t.freeBlocks = (if q % 256 = 0 then s.freeBlocks.drop 1 else s.freeBlocks)
            ∧ t.readClipSample c.val q = s.lastGood[slot]
            ∧ (∀ a, a ≠ sampleAddress (chain.getD (q / 256) 0) (q % 256) →
                Memory.read t.memory a = Memory.read s.memory a)
            ∧ t.reportsAfter s [.captureDone u c.val (s.unit u).wanted .complete]
            ∧ t = { s with units := t.units, clips := t.clips, freeBlocks := t.freeBlocks, memory := t.memory
                           reports := t.reports, lost := t.lost, eventSeq := t.eventSeq }

/-- At a FRAME_ARRIVAL from frame count 1 on whose control slot is free the oldest Cue Out entry leaves in it, with station
field 0 and the frames to go or 0 when its due frame is reached; or, when no entry waits, the word of the head report at the
word position: HEAD, BODY words in order, END, on which the report leaves the queue. Both go by the lists as they stand before
the arrival (R119, R120, R183, R191, R193). CUE_OUT_SENT and REPORT_WORD_SENT are such an arrival, of a good frame with the
IDLE word and samples that nothing fixes, and change nothing when no such word leaves (the model's choice, log entry 19). -/
def Obligations.StationWordsLeaveInFreeSlots : Prop :=
  ∀ s : State, s.lock = .locked → s.reportsBounded →
    (s.cueOut = [] → exec .cueOutSent s = .next s)
      ∧ (s.cueOut ≠ [] ∨ s.reports = [] → exec .reportWordSent s = .next s)
      ∧ (∃ line : LineFrame, (frameOfLine line).good ∧ (frameOfLine line).control = 0
          ∧ (s.cueOut ≠ [] → exec .cueOutSent s = exec (.frameArrival line) s)
          ∧ (s.cueOut = [] → s.reports ≠ [] → exec .reportWordSent s = exec (.frameArrival line) s))
      ∧ ∀ c : Instr, (c = .cueOutSent ∨ c = .reportWordSent ∨ ∃ line : LineFrame, c = .frameArrival line
          ∧ ((frameOfLine line).good ∧ travelsOn s.station (frameOfLine line).control = false
            ∨ ¬(frameOfLine line).good ∧ s.badRun < 2)) →
        (∀ e rest, s.cueOut = e :: rest → c ≠ .reportWordSent →
            let d := (e.due - (s.frameCount + 1)).toNat
            let offset := if 1 ≤ d ∧ d ≤ 4095 then d else 0
            ∃ t, exec c s = .next t ∧ (frameOfLine t.lineOut).good
              ∧ (frameOfLine t.lineOut).control = controlWord .cue 0 (BitVec.ofNat 24 (4096 * e.cue.val + offset))
              ∧ t.wordPos = s.wordPos ∧ t.frameCount = s.frameCount + 1 ∧ (∃ more, t.reports = s.reports ++ more)
              ∧ (s.assembly = none → ∃ placed, t.cueOut = rest ++ placed))
          ∧ ∀ r rest, s.cueOut = [] → s.reports = r :: rest → c ≠ .cueOutSent →
              ∃ t more, exec c s = .next t ∧ (frameOfLine t.lineOut).good
                ∧ (frameOfLine t.lineOut).control = r.wordAt s.station s.wordPos ∧ t.frameCount = s.frameCount + 1
                ∧ t.reports = (if s.wordPos = r.body.length + 1 then rest else r :: rest) ++ more
                ∧ t.wordPos = if s.wordPos = r.body.length + 1 then 0 else s.wordPos + 1

/-! The Trigger Queue and the Report Queue -/

/-- An entry admitted at count a with offset d falls due at the arrival of count a + 1 when d is 0 or 1 and of count a + d
when d is 2 or more, never at the arrival that admitted it, across the wrap of the count (R105). -/
def Obligations.EntryFallsDueOnItsFrame : Prop :=
  ∀ (a : FrameCount) (offset : Fin 4096) (kind : TriggerKind) (n : Nat), n < 2147483648 →
    let e : TriggerEntry := { due := dueFrame a offset, admitted := a, kind := kind }
    e.due.toNat = (a.toNat + offset.val) % 4294967296
      ∧ (e.fallsDue (a + BitVec.ofNat 32 n) = true ↔ 1 ≤ n ∧ offset.val ≤ n)

/-- Event reports take the numbers of the event sequence in the order of admission, without a gap and modulo 256, whatever
the queue discards, and an acknowledgement takes none (R184). The reports of one FRAME_ARRIVAL are offered block by block: the
lanes' in ascending lane number, CLIP FREED in ascending clip number, capture unit 0's before unit 1's, MISSED CUE, CUE OUT
DROPPED and ORDER DISCARDED, and an order taken at it is answered behind them; how many are judged before the report whose END
leaves is left open (R187). -/
def Obligations.EventSequenceHasNoGap : Prop :=
  (∀ (s : State) (es : List Event), ∃ added : List Report, (s.offerEvents es).reports = s.reports ++ added
      ∧ (∀ r ∈ added, r.code ≠ 0)
      ∧ (∀ k, (h : k < added.length) → added[k].seq = s.eventSeq + BitVec.ofNat 8 k)
      ∧ (s.offerEvents es).eventSeq = s.eventSeq + BitVec.ofNat 8 added.length
      ∧ s.offerEvents es = { s with
          reports := (s.offerEvents es).reports, lost := (s.offerEvents es).lost
          eventSeq := (s.offerEvents es).eventSeq })
    ∧ (∀ (s : State) (seq : BitVec 8) (words : List Nat), (s.queueAck seq words).eventSeq = s.eventSeq)
    ∧ ∀ (s : State) (line : LineFrame) (word : Option ControlWord), s.Sound → s.lock = .locked →
      ((frameOfLine line).good ∧ word = some (frameOfLine line).control
        ∨ ¬(frameOfLine line).good ∧ s.badRun < 2 ∧ word = none) →
      ∃ (t : State) (lanes unit0 unit1 discarded : List Event) (freed : List Nat) (missed dropped : List (Fin 4096)) (n : Nat)
        (more : List Report), exec (.frameArrival line) s = .next t
        ∧ (∀ e ∈ lanes, e.laneOf.isSome = true)
        ∧ lanes.Pairwise (fun e f => ∀ i j, e.laneOf = some i → f.laneOf = some j → i ≤ j)
        ∧ freed.Pairwise (· < ·) ∧ (∀ e ∈ unit0, e.unitOf = some 0) ∧ (∀ e ∈ unit1, e.unitOf = some 1)
        ∧ (∀ e ∈ discarded, ∃ seq reason, e = .orderDiscarded seq reason)
        ∧ let es := lanes ++ freed.map Event.clipFreed ++ unit0 ++ unit1 ++ missed.map (fun c => .missedCue c none)
            ++ dropped.map Event.cueOutDropped ++ discarded
          let left : State := if (s.slotOutcome (s.frameCount + 1) word).2.2.1 = s.reports then s.offerEvents es
            else (s.offerEvents (es.take n)).dropHeadReport.offerEvents (es.drop n)
          t.reports = left.reports ++ more
            ∧ (more = [] → t.lost = left.lost ∧ t.eventSeq = left.eventSeq)
            ∧ (more = [] ∨ ∃ ack events, more = ack :: events ∧ ack.code = 0 ∧ ∀ r ∈ events, r.code ≠ 0)

/-- An event report offered with no discard waiting is admitted just when the queue holds fewer than 24 event reports and
fewer than 32 in all, and otherwise discarded and counted up to 65,535; after discards LOST EVENTS carries their number and
goes first when there is room, and the offered report is judged against the queue as it then stands (R185, R186). -/
def Obligations.LostEventsAreToldFirst : Prop :=
  ∀ (s : State) (e : Event),
    let room : State → Prop := fun u => (u.reports.countP fun r => r.code != 0) < 24 ∧ u.reports.length < 32
    let put : State → Event → State := fun u x =>
      { u with
        reports := u.reports ++ [{ code := x.code, seq := u.eventSeq, body := toPayloads x.words }]
        eventSeq := u.eventSeq + 1 }
    let told := put { s with lost := 0 } (.lostEvents s.lost)
    (s.lost = 0 → room s → s.offerEvent e = put s e)
      ∧ (¬room s → s.offerEvent e = { s with lost := if s.lost < 65535 then s.lost + 1 else 65535 })
      ∧ (s.lost ≠ 0 → room s → room told → s.offerEvent e = put told e)
      ∧ (s.lost ≠ 0 → room s → ¬room told → s.offerEvent e = { told with lost := 1 })

end
end

