-- ==== Sys2Proof/Laws/State.lean ====
section
/-! SUPPORT. What each named update of State does to each field: one lemma per field per update. -/

namespace Sys2Proof.Machine

/-! setRecord -/

@[simp] theorem State.setRecord_lock (s : State) (index : Nat) (r : Record) : (s.setRecord index r).lock = s.lock := rfl
@[simp] theorem State.setRecord_confirm (s : State) (index : Nat) (r : Record) :
    (s.setRecord index r).confirm = s.confirm := rfl
@[simp] theorem State.setRecord_badRun (s : State) (index : Nat) (r : Record) :
    (s.setRecord index r).badRun = s.badRun := rfl
@[simp] theorem State.setRecord_frameCount (s : State) (index : Nat) (r : Record) :
    (s.setRecord index r).frameCount = s.frameCount := rfl
@[simp] theorem State.setRecord_lastGood (s : State) (index : Nat) (r : Record) :
    (s.setRecord index r).lastGood = s.lastGood := rfl
@[simp] theorem State.setRecord_nextBit (s : State) (index : Nat) (r : Record) :
    (s.setRecord index r).nextBit = s.nextBit := rfl
@[simp] theorem State.setRecord_waitingBits (s : State) (index : Nat) (r : Record) :
    (s.setRecord index r).waitingBits = s.waitingBits := rfl
@[simp] theorem State.setRecord_resetLine (s : State) (index : Nat) (r : Record) :
    (s.setRecord index r).resetLine = s.resetLine := rfl
@[simp] theorem State.setRecord_station (s : State) (index : Nat) (r : Record) :
    (s.setRecord index r).station = s.station := rfl
@[simp] theorem State.setRecord_assembly (s : State) (index : Nat) (r : Record) :
    (s.setRecord index r).assembly = s.assembly := rfl
@[simp] theorem State.setRecord_lastTaken (s : State) (index : Nat) (r : Record) :
    (s.setRecord index r).lastTaken = s.lastTaken := rfl
@[simp] theorem State.setRecord_cueMap (s : State) (index : Nat) (r : Record) :
    (s.setRecord index r).cueMap = s.cueMap := rfl
@[simp] theorem State.setRecord_triggers (s : State) (index : Nat) (r : Record) :
    (s.setRecord index r).triggers = s.triggers := rfl
@[simp] theorem State.setRecord_cueOut (s : State) (index : Nat) (r : Record) :
    (s.setRecord index r).cueOut = s.cueOut := rfl
@[simp] theorem State.setRecord_table (s : State) (index : Nat) (r : Record) :
    (s.setRecord index r).table = sparseInsert s.table index r := rfl
@[simp] theorem State.setRecord_lanes (s : State) (index : Nat) (r : Record) : (s.setRecord index r).lanes = s.lanes := rfl
@[simp] theorem State.setRecord_slots (s : State) (index : Nat) (r : Record) : (s.setRecord index r).slots = s.slots := rfl
@[simp] theorem State.setRecord_law (s : State) (index : Nat) (r : Record) : (s.setRecord index r).law = s.law := rfl
@[simp] theorem State.setRecord_memory (s : State) (index : Nat) (r : Record) :
    (s.setRecord index r).memory = s.memory := rfl
@[simp] theorem State.setRecord_freeBlocks (s : State) (index : Nat) (r : Record) :
    (s.setRecord index r).freeBlocks = s.freeBlocks := rfl
@[simp] theorem State.setRecord_clips (s : State) (index : Nat) (r : Record) : (s.setRecord index r).clips = s.clips := rfl
@[simp] theorem State.setRecord_units (s : State) (index : Nat) (r : Record) : (s.setRecord index r).units = s.units := rfl
@[simp] theorem State.setRecord_reports (s : State) (index : Nat) (r : Record) :
    (s.setRecord index r).reports = s.reports := rfl
@[simp] theorem State.setRecord_wordPos (s : State) (index : Nat) (r : Record) :
    (s.setRecord index r).wordPos = s.wordPos := rfl
@[simp] theorem State.setRecord_lost (s : State) (index : Nat) (r : Record) : (s.setRecord index r).lost = s.lost := rfl
@[simp] theorem State.setRecord_eventSeq (s : State) (index : Nat) (r : Record) :
    (s.setRecord index r).eventSeq = s.eventSeq := rfl
@[simp] theorem State.setRecord_lineOut (s : State) (index : Nat) (r : Record) :
    (s.setRecord index r).lineOut = s.lineOut := rfl
@[simp] theorem State.setRecord_choices (s : State) (index : Nat) (r : Record) :
    (s.setRecord index r).choices = s.choices := rfl
@[simp] theorem State.setRecord_pending (s : State) (index : Nat) (r : Record) :
    (s.setRecord index r).pending = s.pending := rfl

/-! eraseRecord -/

@[simp] theorem State.eraseRecord_lock (s : State) (index : Nat) : (s.eraseRecord index).lock = s.lock := rfl
@[simp] theorem State.eraseRecord_confirm (s : State) (index : Nat) : (s.eraseRecord index).confirm = s.confirm := rfl
@[simp] theorem State.eraseRecord_badRun (s : State) (index : Nat) : (s.eraseRecord index).badRun = s.badRun := rfl
@[simp] theorem State.eraseRecord_frameCount (s : State) (index : Nat) :
    (s.eraseRecord index).frameCount = s.frameCount := rfl
@[simp] theorem State.eraseRecord_lastGood (s : State) (index : Nat) : (s.eraseRecord index).lastGood = s.lastGood := rfl
@[simp] theorem State.eraseRecord_nextBit (s : State) (index : Nat) : (s.eraseRecord index).nextBit = s.nextBit := rfl
@[simp] theorem State.eraseRecord_waitingBits (s : State) (index : Nat) : (s.eraseRecord index).waitingBits = s.waitingBits := rfl
@[simp] theorem State.eraseRecord_resetLine (s : State) (index : Nat) : (s.eraseRecord index).resetLine = s.resetLine := rfl
@[simp] theorem State.eraseRecord_station (s : State) (index : Nat) : (s.eraseRecord index).station = s.station := rfl
@[simp] theorem State.eraseRecord_assembly (s : State) (index : Nat) : (s.eraseRecord index).assembly = s.assembly := rfl
@[simp] theorem State.eraseRecord_lastTaken (s : State) (index : Nat) : (s.eraseRecord index).lastTaken = s.lastTaken := rfl
@[simp] theorem State.eraseRecord_cueMap (s : State) (index : Nat) : (s.eraseRecord index).cueMap = s.cueMap := rfl
@[simp] theorem State.eraseRecord_triggers (s : State) (index : Nat) : (s.eraseRecord index).triggers = s.triggers := rfl
@[simp] theorem State.eraseRecord_cueOut (s : State) (index : Nat) : (s.eraseRecord index).cueOut = s.cueOut := rfl
@[simp] theorem State.eraseRecord_table (s : State) (index : Nat) :
    (s.eraseRecord index).table = sparseErase s.table index := rfl
@[simp] theorem State.eraseRecord_lanes (s : State) (index : Nat) : (s.eraseRecord index).lanes = s.lanes := rfl
@[simp] theorem State.eraseRecord_slots (s : State) (index : Nat) : (s.eraseRecord index).slots = s.slots := rfl
@[simp] theorem State.eraseRecord_law (s : State) (index : Nat) : (s.eraseRecord index).law = s.law := rfl
@[simp] theorem State.eraseRecord_memory (s : State) (index : Nat) : (s.eraseRecord index).memory = s.memory := rfl
@[simp] theorem State.eraseRecord_freeBlocks (s : State) (index : Nat) :
    (s.eraseRecord index).freeBlocks = s.freeBlocks := rfl
@[simp] theorem State.eraseRecord_clips (s : State) (index : Nat) : (s.eraseRecord index).clips = s.clips := rfl
@[simp] theorem State.eraseRecord_units (s : State) (index : Nat) : (s.eraseRecord index).units = s.units := rfl
@[simp] theorem State.eraseRecord_reports (s : State) (index : Nat) : (s.eraseRecord index).reports = s.reports := rfl
@[simp] theorem State.eraseRecord_wordPos (s : State) (index : Nat) : (s.eraseRecord index).wordPos = s.wordPos := rfl
@[simp] theorem State.eraseRecord_lost (s : State) (index : Nat) : (s.eraseRecord index).lost = s.lost := rfl
@[simp] theorem State.eraseRecord_eventSeq (s : State) (index : Nat) : (s.eraseRecord index).eventSeq = s.eventSeq := rfl
@[simp] theorem State.eraseRecord_lineOut (s : State) (index : Nat) : (s.eraseRecord index).lineOut = s.lineOut := rfl
@[simp] theorem State.eraseRecord_choices (s : State) (index : Nat) : (s.eraseRecord index).choices = s.choices := rfl
@[simp] theorem State.eraseRecord_pending (s : State) (index : Nat) : (s.eraseRecord index).pending = s.pending := rfl

/-! setLane -/

@[simp] theorem State.setLane_lock (s : State) (i : Fin 8) (l : Lane) : (s.setLane i l).lock = s.lock := rfl
@[simp] theorem State.setLane_confirm (s : State) (i : Fin 8) (l : Lane) : (s.setLane i l).confirm = s.confirm := rfl
@[simp] theorem State.setLane_badRun (s : State) (i : Fin 8) (l : Lane) : (s.setLane i l).badRun = s.badRun := rfl
@[simp] theorem State.setLane_frameCount (s : State) (i : Fin 8) (l : Lane) :
    (s.setLane i l).frameCount = s.frameCount := rfl
@[simp] theorem State.setLane_lastGood (s : State) (i : Fin 8) (l : Lane) : (s.setLane i l).lastGood = s.lastGood := rfl
@[simp] theorem State.setLane_nextBit (s : State) (i : Fin 8) (l : Lane) : (s.setLane i l).nextBit = s.nextBit := rfl
@[simp] theorem State.setLane_waitingBits (s : State) (i : Fin 8) (l : Lane) : (s.setLane i l).waitingBits = s.waitingBits := rfl
@[simp] theorem State.setLane_resetLine (s : State) (i : Fin 8) (l : Lane) : (s.setLane i l).resetLine = s.resetLine := rfl
@[simp] theorem State.setLane_station (s : State) (i : Fin 8) (l : Lane) : (s.setLane i l).station = s.station := rfl
@[simp] theorem State.setLane_assembly (s : State) (i : Fin 8) (l : Lane) : (s.setLane i l).assembly = s.assembly := rfl
@[simp] theorem State.setLane_lastTaken (s : State) (i : Fin 8) (l : Lane) : (s.setLane i l).lastTaken = s.lastTaken := rfl
@[simp] theorem State.setLane_cueMap (s : State) (i : Fin 8) (l : Lane) : (s.setLane i l).cueMap = s.cueMap := rfl
@[simp] theorem State.setLane_triggers (s : State) (i : Fin 8) (l : Lane) : (s.setLane i l).triggers = s.triggers := rfl
@[simp] theorem State.setLane_cueOut (s : State) (i : Fin 8) (l : Lane) : (s.setLane i l).cueOut = s.cueOut := rfl
@[simp] theorem State.setLane_table (s : State) (i : Fin 8) (l : Lane) : (s.setLane i l).table = s.table := rfl
@[simp] theorem State.setLane_lanes (s : State) (i : Fin 8) (l : Lane) : (s.setLane i l).lanes = s.lanes.set i l := rfl
@[simp] theorem State.setLane_slots (s : State) (i : Fin 8) (l : Lane) : (s.setLane i l).slots = s.slots := rfl
@[simp] theorem State.setLane_law (s : State) (i : Fin 8) (l : Lane) : (s.setLane i l).law = s.law := rfl
@[simp] theorem State.setLane_memory (s : State) (i : Fin 8) (l : Lane) : (s.setLane i l).memory = s.memory := rfl
@[simp] theorem State.setLane_freeBlocks (s : State) (i : Fin 8) (l : Lane) :
    (s.setLane i l).freeBlocks = s.freeBlocks := rfl
@[simp] theorem State.setLane_clips (s : State) (i : Fin 8) (l : Lane) : (s.setLane i l).clips = s.clips := rfl
@[simp] theorem State.setLane_units (s : State) (i : Fin 8) (l : Lane) : (s.setLane i l).units = s.units := rfl
@[simp] theorem State.setLane_reports (s : State) (i : Fin 8) (l : Lane) : (s.setLane i l).reports = s.reports := rfl
@[simp] theorem State.setLane_wordPos (s : State) (i : Fin 8) (l : Lane) : (s.setLane i l).wordPos = s.wordPos := rfl
@[simp] theorem State.setLane_lost (s : State) (i : Fin 8) (l : Lane) : (s.setLane i l).lost = s.lost := rfl
@[simp] theorem State.setLane_eventSeq (s : State) (i : Fin 8) (l : Lane) : (s.setLane i l).eventSeq = s.eventSeq := rfl
@[simp] theorem State.setLane_lineOut (s : State) (i : Fin 8) (l : Lane) : (s.setLane i l).lineOut = s.lineOut := rfl
@[simp] theorem State.setLane_choices (s : State) (i : Fin 8) (l : Lane) : (s.setLane i l).choices = s.choices := rfl
@[simp] theorem State.setLane_pending (s : State) (i : Fin 8) (l : Lane) : (s.setLane i l).pending = s.pending := rfl

/-! setSlots -/

@[simp] theorem State.setSlots_lock (s : State) (js : List (Fin 16)) (owner : Option (Fin 8)) :
    (s.setSlots js owner).lock = s.lock := rfl
@[simp] theorem State.setSlots_confirm (s : State) (js : List (Fin 16)) (owner : Option (Fin 8)) :
    (s.setSlots js owner).confirm = s.confirm := rfl
@[simp] theorem State.setSlots_badRun (s : State) (js : List (Fin 16)) (owner : Option (Fin 8)) :
    (s.setSlots js owner).badRun = s.badRun := rfl
@[simp] theorem State.setSlots_frameCount (s : State) (js : List (Fin 16)) (owner : Option (Fin 8)) :
    (s.setSlots js owner).frameCount = s.frameCount := rfl
@[simp] theorem State.setSlots_lastGood (s : State) (js : List (Fin 16)) (owner : Option (Fin 8)) :
    (s.setSlots js owner).lastGood = s.lastGood := rfl
@[simp] theorem State.setSlots_nextBit (s : State) (js : List (Fin 16)) (owner : Option (Fin 8)) :
    (s.setSlots js owner).nextBit = s.nextBit := rfl
@[simp] theorem State.setSlots_waitingBits (s : State) (js : List (Fin 16)) (owner : Option (Fin 8)) :
    (s.setSlots js owner).waitingBits = s.waitingBits := rfl
@[simp] theorem State.setSlots_resetLine (s : State) (js : List (Fin 16)) (owner : Option (Fin 8)) :
    (s.setSlots js owner).resetLine = s.resetLine := rfl
@[simp] theorem State.setSlots_station (s : State) (js : List (Fin 16)) (owner : Option (Fin 8)) :
    (s.setSlots js owner).station = s.station := rfl
@[simp] theorem State.setSlots_assembly (s : State) (js : List (Fin 16)) (owner : Option (Fin 8)) :
    (s.setSlots js owner).assembly = s.assembly := rfl
@[simp] theorem State.setSlots_lastTaken (s : State) (js : List (Fin 16)) (owner : Option (Fin 8)) :
    (s.setSlots js owner).lastTaken = s.lastTaken := rfl
@[simp] theorem State.setSlots_cueMap (s : State) (js : List (Fin 16)) (owner : Option (Fin 8)) :
    (s.setSlots js owner).cueMap = s.cueMap := rfl
@[simp] theorem State.setSlots_triggers (s : State) (js : List (Fin 16)) (owner : Option (Fin 8)) :
    (s.setSlots js owner).triggers = s.triggers := rfl
@[simp] theorem State.setSlots_cueOut (s : State) (js : List (Fin 16)) (owner : Option (Fin 8)) :
    (s.setSlots js owner).cueOut = s.cueOut := rfl
@[simp] theorem State.setSlots_table (s : State) (js : List (Fin 16)) (owner : Option (Fin 8)) :
    (s.setSlots js owner).table = s.table := rfl
@[simp] theorem State.setSlots_lanes (s : State) (js : List (Fin 16)) (owner : Option (Fin 8)) :
    (s.setSlots js owner).lanes = s.lanes := rfl
@[simp] theorem State.setSlots_slots (s : State) (js : List (Fin 16)) (owner : Option (Fin 8)) :
    (s.setSlots js owner).slots = Vector.ofFn fun j => if j ∈ js then owner else s.slots[j] := rfl
@[simp] theorem State.setSlots_law (s : State) (js : List (Fin 16)) (owner : Option (Fin 8)) :
    (s.setSlots js owner).law = s.law := rfl
@[simp] theorem State.setSlots_memory (s : State) (js : List (Fin 16)) (owner : Option (Fin 8)) :
    (s.setSlots js owner).memory = s.memory := rfl
@[simp] theorem State.setSlots_freeBlocks (s : State) (js : List (Fin 16)) (owner : Option (Fin 8)) :
    (s.setSlots js owner).freeBlocks = s.freeBlocks := rfl
@[simp] theorem State.setSlots_clips (s : State) (js : List (Fin 16)) (owner : Option (Fin 8)) :
    (s.setSlots js owner).clips = s.clips := rfl
@[simp] theorem State.setSlots_units (s : State) (js : List (Fin 16)) (owner : Option (Fin 8)) :
    (s.setSlots js owner).units = s.units := rfl
@[simp] theorem State.setSlots_reports (s : State) (js : List (Fin 16)) (owner : Option (Fin 8)) :
    (s.setSlots js owner).reports = s.reports := rfl
@[simp] theorem State.setSlots_wordPos (s : State) (js : List (Fin 16)) (owner : Option (Fin 8)) :
    (s.setSlots js owner).wordPos = s.wordPos := rfl
@[simp] theorem State.setSlots_lost (s : State) (js : List (Fin 16)) (owner : Option (Fin 8)) :
    (s.setSlots js owner).lost = s.lost := rfl
@[simp] theorem State.setSlots_eventSeq (s : State) (js : List (Fin 16)) (owner : Option (Fin 8)) :
    (s.setSlots js owner).eventSeq = s.eventSeq := rfl
@[simp] theorem State.setSlots_lineOut (s : State) (js : List (Fin 16)) (owner : Option (Fin 8)) :
    (s.setSlots js owner).lineOut = s.lineOut := rfl
@[simp] theorem State.setSlots_choices (s : State) (js : List (Fin 16)) (owner : Option (Fin 8)) :
    (s.setSlots js owner).choices = s.choices := rfl
@[simp] theorem State.setSlots_pending (s : State) (js : List (Fin 16)) (owner : Option (Fin 8)) :
    (s.setSlots js owner).pending = s.pending := rfl

/-! setClip -/

@[simp] theorem State.setClip_lock (s : State) (c : Nat) (v : Clip) : (s.setClip c v).lock = s.lock := rfl
@[simp] theorem State.setClip_confirm (s : State) (c : Nat) (v : Clip) : (s.setClip c v).confirm = s.confirm := rfl
@[simp] theorem State.setClip_badRun (s : State) (c : Nat) (v : Clip) : (s.setClip c v).badRun = s.badRun := rfl
@[simp] theorem State.setClip_frameCount (s : State) (c : Nat) (v : Clip) : (s.setClip c v).frameCount = s.frameCount := rfl
@[simp] theorem State.setClip_lastGood (s : State) (c : Nat) (v : Clip) : (s.setClip c v).lastGood = s.lastGood := rfl
@[simp] theorem State.setClip_nextBit (s : State) (c : Nat) (v : Clip) : (s.setClip c v).nextBit = s.nextBit := rfl
@[simp] theorem State.setClip_waitingBits (s : State) (c : Nat) (v : Clip) : (s.setClip c v).waitingBits = s.waitingBits := rfl
@[simp] theorem State.setClip_resetLine (s : State) (c : Nat) (v : Clip) : (s.setClip c v).resetLine = s.resetLine := rfl
@[simp] theorem State.setClip_station (s : State) (c : Nat) (v : Clip) : (s.setClip c v).station = s.station := rfl
@[simp] theorem State.setClip_assembly (s : State) (c : Nat) (v : Clip) : (s.setClip c v).assembly = s.assembly := rfl
@[simp] theorem State.setClip_lastTaken (s : State) (c : Nat) (v : Clip) : (s.setClip c v).lastTaken = s.lastTaken := rfl
@[simp] theorem State.setClip_cueMap (s : State) (c : Nat) (v : Clip) : (s.setClip c v).cueMap = s.cueMap := rfl
@[simp] theorem State.setClip_triggers (s : State) (c : Nat) (v : Clip) : (s.setClip c v).triggers = s.triggers := rfl
@[simp] theorem State.setClip_cueOut (s : State) (c : Nat) (v : Clip) : (s.setClip c v).cueOut = s.cueOut := rfl
@[simp] theorem State.setClip_table (s : State) (c : Nat) (v : Clip) : (s.setClip c v).table = s.table := rfl
@[simp] theorem State.setClip_lanes (s : State) (c : Nat) (v : Clip) : (s.setClip c v).lanes = s.lanes := rfl
@[simp] theorem State.setClip_slots (s : State) (c : Nat) (v : Clip) : (s.setClip c v).slots = s.slots := rfl
@[simp] theorem State.setClip_law (s : State) (c : Nat) (v : Clip) : (s.setClip c v).law = s.law := rfl
@[simp] theorem State.setClip_memory (s : State) (c : Nat) (v : Clip) : (s.setClip c v).memory = s.memory := rfl
@[simp] theorem State.setClip_freeBlocks (s : State) (c : Nat) (v : Clip) : (s.setClip c v).freeBlocks = s.freeBlocks := rfl
@[simp] theorem State.setClip_clips (s : State) (c : Nat) (v : Clip) :
    (s.setClip c v).clips = if v = Clip.freed then sparseErase s.clips c else sparseInsert s.clips c v := rfl
@[simp] theorem State.setClip_units (s : State) (c : Nat) (v : Clip) : (s.setClip c v).units = s.units := rfl
@[simp] theorem State.setClip_reports (s : State) (c : Nat) (v : Clip) : (s.setClip c v).reports = s.reports := rfl
@[simp] theorem State.setClip_wordPos (s : State) (c : Nat) (v : Clip) : (s.setClip c v).wordPos = s.wordPos := rfl
@[simp] theorem State.setClip_lost (s : State) (c : Nat) (v : Clip) : (s.setClip c v).lost = s.lost := rfl
@[simp] theorem State.setClip_eventSeq (s : State) (c : Nat) (v : Clip) : (s.setClip c v).eventSeq = s.eventSeq := rfl
@[simp] theorem State.setClip_lineOut (s : State) (c : Nat) (v : Clip) : (s.setClip c v).lineOut = s.lineOut := rfl
@[simp] theorem State.setClip_choices (s : State) (c : Nat) (v : Clip) : (s.setClip c v).choices = s.choices := rfl
@[simp] theorem State.setClip_pending (s : State) (c : Nat) (v : Clip) : (s.setClip c v).pending = s.pending := rfl

/-! setUnit -/

@[simp] theorem State.setUnit_lock (s : State) (u : Fin 2) (v : CaptureUnit) : (s.setUnit u v).lock = s.lock := rfl
@[simp] theorem State.setUnit_confirm (s : State) (u : Fin 2) (v : CaptureUnit) : (s.setUnit u v).confirm = s.confirm := rfl
@[simp] theorem State.setUnit_badRun (s : State) (u : Fin 2) (v : CaptureUnit) : (s.setUnit u v).badRun = s.badRun := rfl
@[simp] theorem State.setUnit_frameCount (s : State) (u : Fin 2) (v : CaptureUnit) :
    (s.setUnit u v).frameCount = s.frameCount := rfl
@[simp] theorem State.setUnit_lastGood (s : State) (u : Fin 2) (v : CaptureUnit) :
    (s.setUnit u v).lastGood = s.lastGood := rfl
@[simp] theorem State.setUnit_nextBit (s : State) (u : Fin 2) (v : CaptureUnit) : (s.setUnit u v).nextBit = s.nextBit := rfl
@[simp] theorem State.setUnit_waitingBits (s : State) (u : Fin 2) (v : CaptureUnit) : (s.setUnit u v).waitingBits = s.waitingBits := rfl
@[simp] theorem State.setUnit_resetLine (s : State) (u : Fin 2) (v : CaptureUnit) :
    (s.setUnit u v).resetLine = s.resetLine := rfl
@[simp] theorem State.setUnit_station (s : State) (u : Fin 2) (v : CaptureUnit) : (s.setUnit u v).station = s.station := rfl
@[simp] theorem State.setUnit_assembly (s : State) (u : Fin 2) (v : CaptureUnit) :
    (s.setUnit u v).assembly = s.assembly := rfl
@[simp] theorem State.setUnit_lastTaken (s : State) (u : Fin 2) (v : CaptureUnit) :
    (s.setUnit u v).lastTaken = s.lastTaken := rfl
@[simp] theorem State.setUnit_cueMap (s : State) (u : Fin 2) (v : CaptureUnit) : (s.setUnit u v).cueMap = s.cueMap := rfl
@[simp] theorem State.setUnit_triggers (s : State) (u : Fin 2) (v : CaptureUnit) :
    (s.setUnit u v).triggers = s.triggers := rfl
@[simp] theorem State.setUnit_cueOut (s : State) (u : Fin 2) (v : CaptureUnit) : (s.setUnit u v).cueOut = s.cueOut := rfl
@[simp] theorem State.setUnit_table (s : State) (u : Fin 2) (v : CaptureUnit) : (s.setUnit u v).table = s.table := rfl
@[simp] theorem State.setUnit_lanes (s : State) (u : Fin 2) (v : CaptureUnit) : (s.setUnit u v).lanes = s.lanes := rfl
@[simp] theorem State.setUnit_slots (s : State) (u : Fin 2) (v : CaptureUnit) : (s.setUnit u v).slots = s.slots := rfl
@[simp] theorem State.setUnit_law (s : State) (u : Fin 2) (v : CaptureUnit) : (s.setUnit u v).law = s.law := rfl
@[simp] theorem State.setUnit_memory (s : State) (u : Fin 2) (v : CaptureUnit) : (s.setUnit u v).memory = s.memory := rfl
@[simp] theorem State.setUnit_freeBlocks (s : State) (u : Fin 2) (v : CaptureUnit) :
    (s.setUnit u v).freeBlocks = s.freeBlocks := rfl
@[simp] theorem State.setUnit_clips (s : State) (u : Fin 2) (v : CaptureUnit) : (s.setUnit u v).clips = s.clips := rfl
@[simp] theorem State.setUnit_units (s : State) (u : Fin 2) (v : CaptureUnit) :
    (s.setUnit u v).units = s.units.set u v := rfl
@[simp] theorem State.setUnit_reports (s : State) (u : Fin 2) (v : CaptureUnit) : (s.setUnit u v).reports = s.reports := rfl
@[simp] theorem State.setUnit_wordPos (s : State) (u : Fin 2) (v : CaptureUnit) : (s.setUnit u v).wordPos = s.wordPos := rfl
@[simp] theorem State.setUnit_lost (s : State) (u : Fin 2) (v : CaptureUnit) : (s.setUnit u v).lost = s.lost := rfl
@[simp] theorem State.setUnit_eventSeq (s : State) (u : Fin 2) (v : CaptureUnit) :
    (s.setUnit u v).eventSeq = s.eventSeq := rfl
@[simp] theorem State.setUnit_lineOut (s : State) (u : Fin 2) (v : CaptureUnit) : (s.setUnit u v).lineOut = s.lineOut := rfl
@[simp] theorem State.setUnit_choices (s : State) (u : Fin 2) (v : CaptureUnit) : (s.setUnit u v).choices = s.choices := rfl
@[simp] theorem State.setUnit_pending (s : State) (u : Fin 2) (v : CaptureUnit) : (s.setUnit u v).pending = s.pending := rfl

/-! freeClip -/

@[simp] theorem State.freeClip_lock (s : State) (c : Nat) : (s.freeClip c).lock = s.lock := rfl
@[simp] theorem State.freeClip_confirm (s : State) (c : Nat) : (s.freeClip c).confirm = s.confirm := rfl
@[simp] theorem State.freeClip_badRun (s : State) (c : Nat) : (s.freeClip c).badRun = s.badRun := rfl
@[simp] theorem State.freeClip_frameCount (s : State) (c : Nat) : (s.freeClip c).frameCount = s.frameCount := rfl
@[simp] theorem State.freeClip_lastGood (s : State) (c : Nat) : (s.freeClip c).lastGood = s.lastGood := rfl
@[simp] theorem State.freeClip_nextBit (s : State) (c : Nat) : (s.freeClip c).nextBit = s.nextBit := rfl
@[simp] theorem State.freeClip_waitingBits (s : State) (c : Nat) : (s.freeClip c).waitingBits = s.waitingBits := rfl
@[simp] theorem State.freeClip_resetLine (s : State) (c : Nat) : (s.freeClip c).resetLine = s.resetLine := rfl
@[simp] theorem State.freeClip_station (s : State) (c : Nat) : (s.freeClip c).station = s.station := rfl
@[simp] theorem State.freeClip_assembly (s : State) (c : Nat) : (s.freeClip c).assembly = s.assembly := rfl
@[simp] theorem State.freeClip_lastTaken (s : State) (c : Nat) : (s.freeClip c).lastTaken = s.lastTaken := rfl
@[simp] theorem State.freeClip_cueMap (s : State) (c : Nat) : (s.freeClip c).cueMap = s.cueMap := rfl
@[simp] theorem State.freeClip_triggers (s : State) (c : Nat) : (s.freeClip c).triggers = s.triggers := rfl
@[simp] theorem State.freeClip_cueOut (s : State) (c : Nat) : (s.freeClip c).cueOut = s.cueOut := rfl
@[simp] theorem State.freeClip_table (s : State) (c : Nat) : (s.freeClip c).table = s.table := rfl
@[simp] theorem State.freeClip_lanes (s : State) (c : Nat) : (s.freeClip c).lanes = s.lanes := rfl
@[simp] theorem State.freeClip_slots (s : State) (c : Nat) : (s.freeClip c).slots = s.slots := rfl
@[simp] theorem State.freeClip_law (s : State) (c : Nat) : (s.freeClip c).law = s.law := rfl
@[simp] theorem State.freeClip_memory (s : State) (c : Nat) : (s.freeClip c).memory = s.memory := rfl
@[simp] theorem State.freeClip_freeBlocks (s : State) (c : Nat) :
    (s.freeClip c).freeBlocks = s.freeBlocks ++ (s.clip c).chain := rfl
@[simp] theorem State.freeClip_clips (s : State) (c : Nat) : (s.freeClip c).clips = (s.setClip c Clip.freed).clips := rfl
@[simp] theorem State.freeClip_units (s : State) (c : Nat) : (s.freeClip c).units = s.units := rfl
@[simp] theorem State.freeClip_reports (s : State) (c : Nat) : (s.freeClip c).reports = s.reports := rfl
@[simp] theorem State.freeClip_wordPos (s : State) (c : Nat) : (s.freeClip c).wordPos = s.wordPos := rfl
@[simp] theorem State.freeClip_lost (s : State) (c : Nat) : (s.freeClip c).lost = s.lost := rfl
@[simp] theorem State.freeClip_eventSeq (s : State) (c : Nat) : (s.freeClip c).eventSeq = s.eventSeq := rfl
@[simp] theorem State.freeClip_lineOut (s : State) (c : Nat) : (s.freeClip c).lineOut = s.lineOut := rfl
@[simp] theorem State.freeClip_choices (s : State) (c : Nat) : (s.freeClip c).choices = s.choices := rfl
@[simp] theorem State.freeClip_pending (s : State) (c : Nat) : (s.freeClip c).pending = s.pending := rfl

/-! addUse -/

@[simp] theorem State.addUse_lock (s : State) (c : Nat) : (s.addUse c).lock = s.lock := rfl
@[simp] theorem State.addUse_confirm (s : State) (c : Nat) : (s.addUse c).confirm = s.confirm := rfl
@[simp] theorem State.addUse_badRun (s : State) (c : Nat) : (s.addUse c).badRun = s.badRun := rfl
@[simp] theorem State.addUse_frameCount (s : State) (c : Nat) : (s.addUse c).frameCount = s.frameCount := rfl
@[simp] theorem State.addUse_lastGood (s : State) (c : Nat) : (s.addUse c).lastGood = s.lastGood := rfl
@[simp] theorem State.addUse_nextBit (s : State) (c : Nat) : (s.addUse c).nextBit = s.nextBit := rfl
@[simp] theorem State.addUse_waitingBits (s : State) (c : Nat) : (s.addUse c).waitingBits = s.waitingBits := rfl
@[simp] theorem State.addUse_resetLine (s : State) (c : Nat) : (s.addUse c).resetLine = s.resetLine := rfl
@[simp] theorem State.addUse_station (s : State) (c : Nat) : (s.addUse c).station = s.station := rfl
@[simp] theorem State.addUse_assembly (s : State) (c : Nat) : (s.addUse c).assembly = s.assembly := rfl
@[simp] theorem State.addUse_lastTaken (s : State) (c : Nat) : (s.addUse c).lastTaken = s.lastTaken := rfl
@[simp] theorem State.addUse_cueMap (s : State) (c : Nat) : (s.addUse c).cueMap = s.cueMap := rfl
@[simp] theorem State.addUse_triggers (s : State) (c : Nat) : (s.addUse c).triggers = s.triggers := rfl
@[simp] theorem State.addUse_cueOut (s : State) (c : Nat) : (s.addUse c).cueOut = s.cueOut := rfl
@[simp] theorem State.addUse_table (s : State) (c : Nat) : (s.addUse c).table = s.table := rfl
@[simp] theorem State.addUse_lanes (s : State) (c : Nat) : (s.addUse c).lanes = s.lanes := rfl
@[simp] theorem State.addUse_slots (s : State) (c : Nat) : (s.addUse c).slots = s.slots := rfl
@[simp] theorem State.addUse_law (s : State) (c : Nat) : (s.addUse c).law = s.law := rfl
@[simp] theorem State.addUse_memory (s : State) (c : Nat) : (s.addUse c).memory = s.memory := rfl
@[simp] theorem State.addUse_freeBlocks (s : State) (c : Nat) : (s.addUse c).freeBlocks = s.freeBlocks := rfl
@[simp] theorem State.addUse_clips (s : State) (c : Nat) :
    (s.addUse c).clips = (s.setClip c { s.clip c with uses := (s.clip c).uses + 1 }).clips := rfl
@[simp] theorem State.addUse_units (s : State) (c : Nat) : (s.addUse c).units = s.units := rfl
@[simp] theorem State.addUse_reports (s : State) (c : Nat) : (s.addUse c).reports = s.reports := rfl
@[simp] theorem State.addUse_wordPos (s : State) (c : Nat) : (s.addUse c).wordPos = s.wordPos := rfl
@[simp] theorem State.addUse_lost (s : State) (c : Nat) : (s.addUse c).lost = s.lost := rfl
@[simp] theorem State.addUse_eventSeq (s : State) (c : Nat) : (s.addUse c).eventSeq = s.eventSeq := rfl
@[simp] theorem State.addUse_lineOut (s : State) (c : Nat) : (s.addUse c).lineOut = s.lineOut := rfl
@[simp] theorem State.addUse_choices (s : State) (c : Nat) : (s.addUse c).choices = s.choices := rfl
@[simp] theorem State.addUse_pending (s : State) (c : Nat) : (s.addUse c).pending = s.pending := rfl

/-! releaseUse -/

@[simp] theorem State.releaseUse_lock (s : State) (c : Nat) : (s.releaseUse c).lock = s.lock := rfl
@[simp] theorem State.releaseUse_confirm (s : State) (c : Nat) : (s.releaseUse c).confirm = s.confirm := rfl
@[simp] theorem State.releaseUse_badRun (s : State) (c : Nat) : (s.releaseUse c).badRun = s.badRun := rfl
@[simp] theorem State.releaseUse_frameCount (s : State) (c : Nat) : (s.releaseUse c).frameCount = s.frameCount := rfl
@[simp] theorem State.releaseUse_lastGood (s : State) (c : Nat) : (s.releaseUse c).lastGood = s.lastGood := rfl
@[simp] theorem State.releaseUse_nextBit (s : State) (c : Nat) : (s.releaseUse c).nextBit = s.nextBit := rfl
@[simp] theorem State.releaseUse_waitingBits (s : State) (c : Nat) : (s.releaseUse c).waitingBits = s.waitingBits := rfl
@[simp] theorem State.releaseUse_resetLine (s : State) (c : Nat) : (s.releaseUse c).resetLine = s.resetLine := rfl
@[simp] theorem State.releaseUse_station (s : State) (c : Nat) : (s.releaseUse c).station = s.station := rfl
@[simp] theorem State.releaseUse_assembly (s : State) (c : Nat) : (s.releaseUse c).assembly = s.assembly := rfl
@[simp] theorem State.releaseUse_lastTaken (s : State) (c : Nat) : (s.releaseUse c).lastTaken = s.lastTaken := rfl
@[simp] theorem State.releaseUse_cueMap (s : State) (c : Nat) : (s.releaseUse c).cueMap = s.cueMap := rfl
@[simp] theorem State.releaseUse_triggers (s : State) (c : Nat) : (s.releaseUse c).triggers = s.triggers := rfl
@[simp] theorem State.releaseUse_cueOut (s : State) (c : Nat) : (s.releaseUse c).cueOut = s.cueOut := rfl
@[simp] theorem State.releaseUse_table (s : State) (c : Nat) : (s.releaseUse c).table = s.table := rfl
@[simp] theorem State.releaseUse_lanes (s : State) (c : Nat) : (s.releaseUse c).lanes = s.lanes := rfl
@[simp] theorem State.releaseUse_slots (s : State) (c : Nat) : (s.releaseUse c).slots = s.slots := rfl
@[simp] theorem State.releaseUse_law (s : State) (c : Nat) : (s.releaseUse c).law = s.law := rfl
@[simp] theorem State.releaseUse_memory (s : State) (c : Nat) : (s.releaseUse c).memory = s.memory := rfl
@[simp] theorem State.releaseUse_freeBlocks (s : State) (c : Nat) : (s.releaseUse c).freeBlocks = s.freeBlocks := rfl
@[simp] theorem State.releaseUse_clips (s : State) (c : Nat) :
    (s.releaseUse c).clips = (s.setClip c { s.clip c with uses := (s.clip c).uses - 1 }).clips := rfl
@[simp] theorem State.releaseUse_units (s : State) (c : Nat) : (s.releaseUse c).units = s.units := rfl
@[simp] theorem State.releaseUse_reports (s : State) (c : Nat) : (s.releaseUse c).reports = s.reports := rfl
@[simp] theorem State.releaseUse_wordPos (s : State) (c : Nat) : (s.releaseUse c).wordPos = s.wordPos := rfl
@[simp] theorem State.releaseUse_lost (s : State) (c : Nat) : (s.releaseUse c).lost = s.lost := rfl
@[simp] theorem State.releaseUse_eventSeq (s : State) (c : Nat) : (s.releaseUse c).eventSeq = s.eventSeq := rfl
@[simp] theorem State.releaseUse_lineOut (s : State) (c : Nat) : (s.releaseUse c).lineOut = s.lineOut := rfl
@[simp] theorem State.releaseUse_choices (s : State) (c : Nat) : (s.releaseUse c).choices = s.choices := rfl
@[simp] theorem State.releaseUse_pending (s : State) (c : Nat) : (s.releaseUse c).pending = s.pending := rfl

/-! queueEvent -/

@[simp] theorem State.queueEvent_lock (s : State) (e : Event) : (s.queueEvent e).lock = s.lock := rfl
@[simp] theorem State.queueEvent_confirm (s : State) (e : Event) : (s.queueEvent e).confirm = s.confirm := rfl
@[simp] theorem State.queueEvent_badRun (s : State) (e : Event) : (s.queueEvent e).badRun = s.badRun := rfl
@[simp] theorem State.queueEvent_frameCount (s : State) (e : Event) : (s.queueEvent e).frameCount = s.frameCount := rfl
@[simp] theorem State.queueEvent_lastGood (s : State) (e : Event) : (s.queueEvent e).lastGood = s.lastGood := rfl
@[simp] theorem State.queueEvent_nextBit (s : State) (e : Event) : (s.queueEvent e).nextBit = s.nextBit := rfl
@[simp] theorem State.queueEvent_waitingBits (s : State) (e : Event) : (s.queueEvent e).waitingBits = s.waitingBits := rfl
@[simp] theorem State.queueEvent_resetLine (s : State) (e : Event) : (s.queueEvent e).resetLine = s.resetLine := rfl
@[simp] theorem State.queueEvent_station (s : State) (e : Event) : (s.queueEvent e).station = s.station := rfl
@[simp] theorem State.queueEvent_assembly (s : State) (e : Event) : (s.queueEvent e).assembly = s.assembly := rfl
@[simp] theorem State.queueEvent_lastTaken (s : State) (e : Event) : (s.queueEvent e).lastTaken = s.lastTaken := rfl
@[simp] theorem State.queueEvent_cueMap (s : State) (e : Event) : (s.queueEvent e).cueMap = s.cueMap := rfl
@[simp] theorem State.queueEvent_triggers (s : State) (e : Event) : (s.queueEvent e).triggers = s.triggers := rfl
@[simp] theorem State.queueEvent_cueOut (s : State) (e : Event) : (s.queueEvent e).cueOut = s.cueOut := rfl
@[simp] theorem State.queueEvent_table (s : State) (e : Event) : (s.queueEvent e).table = s.table := rfl
@[simp] theorem State.queueEvent_lanes (s : State) (e : Event) : (s.queueEvent e).lanes = s.lanes := rfl
@[simp] theorem State.queueEvent_slots (s : State) (e : Event) : (s.queueEvent e).slots = s.slots := rfl
@[simp] theorem State.queueEvent_law (s : State) (e : Event) : (s.queueEvent e).law = s.law := rfl
@[simp] theorem State.queueEvent_memory (s : State) (e : Event) : (s.queueEvent e).memory = s.memory := rfl
@[simp] theorem State.queueEvent_freeBlocks (s : State) (e : Event) : (s.queueEvent e).freeBlocks = s.freeBlocks := rfl
@[simp] theorem State.queueEvent_clips (s : State) (e : Event) : (s.queueEvent e).clips = s.clips := rfl
@[simp] theorem State.queueEvent_units (s : State) (e : Event) : (s.queueEvent e).units = s.units := rfl
@[simp] theorem State.queueEvent_reports (s : State) (e : Event) :
    (s.queueEvent e).reports = s.reports ++ [{ code := e.code, seq := s.eventSeq, body := toPayloads e.words }] := rfl
@[simp] theorem State.queueEvent_wordPos (s : State) (e : Event) : (s.queueEvent e).wordPos = s.wordPos := rfl
@[simp] theorem State.queueEvent_lost (s : State) (e : Event) : (s.queueEvent e).lost = s.lost := rfl
@[simp] theorem State.queueEvent_eventSeq (s : State) (e : Event) : (s.queueEvent e).eventSeq = s.eventSeq + 1 := rfl
@[simp] theorem State.queueEvent_lineOut (s : State) (e : Event) : (s.queueEvent e).lineOut = s.lineOut := rfl
@[simp] theorem State.queueEvent_choices (s : State) (e : Event) : (s.queueEvent e).choices = s.choices := rfl
@[simp] theorem State.queueEvent_pending (s : State) (e : Event) : (s.queueEvent e).pending = s.pending := rfl

/-! queueAck -/

@[simp] theorem State.queueAck_lock (s : State) (seq : BitVec 8) (ws : List Nat) : (s.queueAck seq ws).lock = s.lock := rfl
@[simp] theorem State.queueAck_confirm (s : State) (seq : BitVec 8) (ws : List Nat) :
    (s.queueAck seq ws).confirm = s.confirm := rfl
@[simp] theorem State.queueAck_badRun (s : State) (seq : BitVec 8) (ws : List Nat) :
    (s.queueAck seq ws).badRun = s.badRun := rfl
@[simp] theorem State.queueAck_frameCount (s : State) (seq : BitVec 8) (ws : List Nat) :
    (s.queueAck seq ws).frameCount = s.frameCount := rfl
@[simp] theorem State.queueAck_lastGood (s : State) (seq : BitVec 8) (ws : List Nat) :
    (s.queueAck seq ws).lastGood = s.lastGood := rfl
@[simp] theorem State.queueAck_nextBit (s : State) (seq : BitVec 8) (ws : List Nat) :
    (s.queueAck seq ws).nextBit = s.nextBit := rfl
@[simp] theorem State.queueAck_waitingBits (s : State) (seq : BitVec 8) (ws : List Nat) :
    (s.queueAck seq ws).waitingBits = s.waitingBits := rfl
@[simp] theorem State.queueAck_resetLine (s : State) (seq : BitVec 8) (ws : List Nat) :
    (s.queueAck seq ws).resetLine = s.resetLine := rfl
@[simp] theorem State.queueAck_station (s : State) (seq : BitVec 8) (ws : List Nat) :
    (s.queueAck seq ws).station = s.station := rfl
@[simp] theorem State.queueAck_assembly (s : State) (seq : BitVec 8) (ws : List Nat) :
    (s.queueAck seq ws).assembly = s.assembly := rfl
@[simp] theorem State.queueAck_lastTaken (s : State) (seq : BitVec 8) (ws : List Nat) :
    (s.queueAck seq ws).lastTaken = s.lastTaken := rfl
@[simp] theorem State.queueAck_cueMap (s : State) (seq : BitVec 8) (ws : List Nat) :
    (s.queueAck seq ws).cueMap = s.cueMap := rfl
@[simp] theorem State.queueAck_triggers (s : State) (seq : BitVec 8) (ws : List Nat) :
    (s.queueAck seq ws).triggers = s.triggers := rfl
@[simp] theorem State.queueAck_cueOut (s : State) (seq : BitVec 8) (ws : List Nat) :
    (s.queueAck seq ws).cueOut = s.cueOut := rfl
@[simp] theorem State.queueAck_table (s : State) (seq : BitVec 8) (ws : List Nat) :
    (s.queueAck seq ws).table = s.table := rfl
@[simp] theorem State.queueAck_lanes (s : State) (seq : BitVec 8) (ws : List Nat) :
    (s.queueAck seq ws).lanes = s.lanes := rfl
@[simp] theorem State.queueAck_slots (s : State) (seq : BitVec 8) (ws : List Nat) :
    (s.queueAck seq ws).slots = s.slots := rfl
@[simp] theorem State.queueAck_law (s : State) (seq : BitVec 8) (ws : List Nat) : (s.queueAck seq ws).law = s.law := rfl
@[simp] theorem State.queueAck_memory (s : State) (seq : BitVec 8) (ws : List Nat) :
    (s.queueAck seq ws).memory = s.memory := rfl
@[simp] theorem State.queueAck_freeBlocks (s : State) (seq : BitVec 8) (ws : List Nat) :
    (s.queueAck seq ws).freeBlocks = s.freeBlocks := rfl
@[simp] theorem State.queueAck_clips (s : State) (seq : BitVec 8) (ws : List Nat) :
    (s.queueAck seq ws).clips = s.clips := rfl
@[simp] theorem State.queueAck_units (s : State) (seq : BitVec 8) (ws : List Nat) :
    (s.queueAck seq ws).units = s.units := rfl
@[simp] theorem State.queueAck_reports (s : State) (seq : BitVec 8) (ws : List Nat) :
    (s.queueAck seq ws).reports = s.reports ++ [{ code := 0, seq := seq, body := toPayloads ws }] := rfl
@[simp] theorem State.queueAck_wordPos (s : State) (seq : BitVec 8) (ws : List Nat) :
    (s.queueAck seq ws).wordPos = s.wordPos := rfl
@[simp] theorem State.queueAck_lost (s : State) (seq : BitVec 8) (ws : List Nat) : (s.queueAck seq ws).lost = s.lost := rfl
@[simp] theorem State.queueAck_eventSeq (s : State) (seq : BitVec 8) (ws : List Nat) :
    (s.queueAck seq ws).eventSeq = s.eventSeq := rfl
@[simp] theorem State.queueAck_lineOut (s : State) (seq : BitVec 8) (ws : List Nat) :
    (s.queueAck seq ws).lineOut = s.lineOut := rfl
@[simp] theorem State.queueAck_choices (s : State) (seq : BitVec 8) (ws : List Nat) :
    (s.queueAck seq ws).choices = s.choices := rfl
@[simp] theorem State.queueAck_pending (s : State) (seq : BitVec 8) (ws : List Nat) :
    (s.queueAck seq ws).pending = s.pending := rfl

/-! dropHeadReport -/

@[simp] theorem State.dropHeadReport_lock (s : State) : (s.dropHeadReport).lock = s.lock := rfl
@[simp] theorem State.dropHeadReport_confirm (s : State) : (s.dropHeadReport).confirm = s.confirm := rfl
@[simp] theorem State.dropHeadReport_badRun (s : State) : (s.dropHeadReport).badRun = s.badRun := rfl
@[simp] theorem State.dropHeadReport_frameCount (s : State) : (s.dropHeadReport).frameCount = s.frameCount := rfl
@[simp] theorem State.dropHeadReport_lastGood (s : State) : (s.dropHeadReport).lastGood = s.lastGood := rfl
@[simp] theorem State.dropHeadReport_nextBit (s : State) : (s.dropHeadReport).nextBit = s.nextBit := rfl
@[simp] theorem State.dropHeadReport_waitingBits (s : State) : (s.dropHeadReport).waitingBits = s.waitingBits := rfl
@[simp] theorem State.dropHeadReport_resetLine (s : State) : (s.dropHeadReport).resetLine = s.resetLine := rfl
@[simp] theorem State.dropHeadReport_station (s : State) : (s.dropHeadReport).station = s.station := rfl
@[simp] theorem State.dropHeadReport_assembly (s : State) : (s.dropHeadReport).assembly = s.assembly := rfl
@[simp] theorem State.dropHeadReport_lastTaken (s : State) : (s.dropHeadReport).lastTaken = s.lastTaken := rfl
@[simp] theorem State.dropHeadReport_cueMap (s : State) : (s.dropHeadReport).cueMap = s.cueMap := rfl
@[simp] theorem State.dropHeadReport_triggers (s : State) : (s.dropHeadReport).triggers = s.triggers := rfl
@[simp] theorem State.dropHeadReport_cueOut (s : State) : (s.dropHeadReport).cueOut = s.cueOut := rfl
@[simp] theorem State.dropHeadReport_table (s : State) : (s.dropHeadReport).table = s.table := rfl
@[simp] theorem State.dropHeadReport_lanes (s : State) : (s.dropHeadReport).lanes = s.lanes := rfl
@[simp] theorem State.dropHeadReport_slots (s : State) : (s.dropHeadReport).slots = s.slots := rfl
@[simp] theorem State.dropHeadReport_law (s : State) : (s.dropHeadReport).law = s.law := rfl
@[simp] theorem State.dropHeadReport_memory (s : State) : (s.dropHeadReport).memory = s.memory := rfl
@[simp] theorem State.dropHeadReport_freeBlocks (s : State) : (s.dropHeadReport).freeBlocks = s.freeBlocks := rfl
@[simp] theorem State.dropHeadReport_clips (s : State) : (s.dropHeadReport).clips = s.clips := rfl
@[simp] theorem State.dropHeadReport_units (s : State) : (s.dropHeadReport).units = s.units := rfl
@[simp] theorem State.dropHeadReport_reports (s : State) : (s.dropHeadReport).reports = s.reports.tail := rfl
@[simp] theorem State.dropHeadReport_wordPos (s : State) : (s.dropHeadReport).wordPos = 0 := rfl
@[simp] theorem State.dropHeadReport_lost (s : State) : (s.dropHeadReport).lost = s.lost := rfl
@[simp] theorem State.dropHeadReport_eventSeq (s : State) : (s.dropHeadReport).eventSeq = s.eventSeq := rfl
@[simp] theorem State.dropHeadReport_lineOut (s : State) : (s.dropHeadReport).lineOut = s.lineOut := rfl
@[simp] theorem State.dropHeadReport_choices (s : State) : (s.dropHeadReport).choices = s.choices := rfl
@[simp] theorem State.dropHeadReport_pending (s : State) : (s.dropHeadReport).pending = s.pending := rfl

/-! enterTrigger -/

@[simp] theorem State.enterTrigger_lock (s : State) (o : Fin 4096) (k : TriggerKind) :
    (s.enterTrigger o k).lock = s.lock := rfl
@[simp] theorem State.enterTrigger_confirm (s : State) (o : Fin 4096) (k : TriggerKind) :
    (s.enterTrigger o k).confirm = s.confirm := rfl
@[simp] theorem State.enterTrigger_badRun (s : State) (o : Fin 4096) (k : TriggerKind) :
    (s.enterTrigger o k).badRun = s.badRun := rfl
@[simp] theorem State.enterTrigger_frameCount (s : State) (o : Fin 4096) (k : TriggerKind) :
    (s.enterTrigger o k).frameCount = s.frameCount := rfl
@[simp] theorem State.enterTrigger_lastGood (s : State) (o : Fin 4096) (k : TriggerKind) :
    (s.enterTrigger o k).lastGood = s.lastGood := rfl
@[simp] theorem State.enterTrigger_nextBit (s : State) (o : Fin 4096) (k : TriggerKind) :
    (s.enterTrigger o k).nextBit = s.nextBit := rfl
@[simp] theorem State.enterTrigger_waitingBits (s : State) (o : Fin 4096) (k : TriggerKind) :
    (s.enterTrigger o k).waitingBits = s.waitingBits := rfl
@[simp] theorem State.enterTrigger_resetLine (s : State) (o : Fin 4096) (k : TriggerKind) :
    (s.enterTrigger o k).resetLine = s.resetLine := rfl
@[simp] theorem State.enterTrigger_station (s : State) (o : Fin 4096) (k : TriggerKind) :
    (s.enterTrigger o k).station = s.station := rfl
@[simp] theorem State.enterTrigger_assembly (s : State) (o : Fin 4096) (k : TriggerKind) :
    (s.enterTrigger o k).assembly = s.assembly := rfl
@[simp] theorem State.enterTrigger_lastTaken (s : State) (o : Fin 4096) (k : TriggerKind) :
    (s.enterTrigger o k).lastTaken = s.lastTaken := rfl
@[simp] theorem State.enterTrigger_cueMap (s : State) (o : Fin 4096) (k : TriggerKind) :
    (s.enterTrigger o k).cueMap = s.cueMap := rfl
@[simp] theorem State.enterTrigger_triggers (s : State) (o : Fin 4096) (k : TriggerKind) :
    (s.enterTrigger o k).triggers = insertTrigger { due := dueFrame s.frameCount o, admitted := s.frameCount, kind := k } s.triggers := rfl
@[simp] theorem State.enterTrigger_cueOut (s : State) (o : Fin 4096) (k : TriggerKind) :
    (s.enterTrigger o k).cueOut = s.cueOut := rfl
@[simp] theorem State.enterTrigger_table (s : State) (o : Fin 4096) (k : TriggerKind) :
    (s.enterTrigger o k).table = s.table := rfl
@[simp] theorem State.enterTrigger_lanes (s : State) (o : Fin 4096) (k : TriggerKind) :
    (s.enterTrigger o k).lanes = s.lanes := rfl
@[simp] theorem State.enterTrigger_slots (s : State) (o : Fin 4096) (k : TriggerKind) :
    (s.enterTrigger o k).slots = s.slots := rfl
@[simp] theorem State.enterTrigger_law (s : State) (o : Fin 4096) (k : TriggerKind) : (s.enterTrigger o k).law = s.law := rfl
@[simp] theorem State.enterTrigger_memory (s : State) (o : Fin 4096) (k : TriggerKind) :
    (s.enterTrigger o k).memory = s.memory := rfl
@[simp] theorem State.enterTrigger_freeBlocks (s : State) (o : Fin 4096) (k : TriggerKind) :
    (s.enterTrigger o k).freeBlocks = s.freeBlocks := rfl
@[simp] theorem State.enterTrigger_clips (s : State) (o : Fin 4096) (k : TriggerKind) :
    (s.enterTrigger o k).clips = s.clips := rfl
@[simp] theorem State.enterTrigger_units (s : State) (o : Fin 4096) (k : TriggerKind) :
    (s.enterTrigger o k).units = s.units := rfl
@[simp] theorem State.enterTrigger_reports (s : State) (o : Fin 4096) (k : TriggerKind) :
    (s.enterTrigger o k).reports = s.reports := rfl
@[simp] theorem State.enterTrigger_wordPos (s : State) (o : Fin 4096) (k : TriggerKind) :
    (s.enterTrigger o k).wordPos = s.wordPos := rfl
@[simp] theorem State.enterTrigger_lost (s : State) (o : Fin 4096) (k : TriggerKind) :
    (s.enterTrigger o k).lost = s.lost := rfl
@[simp] theorem State.enterTrigger_eventSeq (s : State) (o : Fin 4096) (k : TriggerKind) :
    (s.enterTrigger o k).eventSeq = s.eventSeq := rfl
@[simp] theorem State.enterTrigger_lineOut (s : State) (o : Fin 4096) (k : TriggerKind) :
    (s.enterTrigger o k).lineOut = s.lineOut := rfl
@[simp] theorem State.enterTrigger_choices (s : State) (o : Fin 4096) (k : TriggerKind) :
    (s.enterTrigger o k).choices = s.choices := rfl
@[simp] theorem State.enterTrigger_pending (s : State) (o : Fin 4096) (k : TriggerKind) :
    (s.enterTrigger o k).pending = s.pending := rfl

/-! dropDue -/

@[simp] theorem State.dropDue_lock (s : State) : (s.dropDue).lock = s.lock := rfl
@[simp] theorem State.dropDue_confirm (s : State) : (s.dropDue).confirm = s.confirm := rfl
@[simp] theorem State.dropDue_badRun (s : State) : (s.dropDue).badRun = s.badRun := rfl
@[simp] theorem State.dropDue_frameCount (s : State) : (s.dropDue).frameCount = s.frameCount := rfl
@[simp] theorem State.dropDue_lastGood (s : State) : (s.dropDue).lastGood = s.lastGood := rfl
@[simp] theorem State.dropDue_nextBit (s : State) : (s.dropDue).nextBit = s.nextBit := rfl
@[simp] theorem State.dropDue_waitingBits (s : State) : (s.dropDue).waitingBits = s.waitingBits := rfl
@[simp] theorem State.dropDue_resetLine (s : State) : (s.dropDue).resetLine = s.resetLine := rfl
@[simp] theorem State.dropDue_station (s : State) : (s.dropDue).station = s.station := rfl
@[simp] theorem State.dropDue_assembly (s : State) : (s.dropDue).assembly = s.assembly := rfl
@[simp] theorem State.dropDue_lastTaken (s : State) : (s.dropDue).lastTaken = s.lastTaken := rfl
@[simp] theorem State.dropDue_cueMap (s : State) : (s.dropDue).cueMap = s.cueMap := rfl
@[simp] theorem State.dropDue_triggers (s : State) :
    (s.dropDue).triggers = s.triggers.filter fun e => !e.fallsDue s.frameCount := rfl
@[simp] theorem State.dropDue_cueOut (s : State) : (s.dropDue).cueOut = s.cueOut := rfl
@[simp] theorem State.dropDue_table (s : State) : (s.dropDue).table = s.table := rfl
@[simp] theorem State.dropDue_lanes (s : State) : (s.dropDue).lanes = s.lanes := rfl
@[simp] theorem State.dropDue_slots (s : State) : (s.dropDue).slots = s.slots := rfl
@[simp] theorem State.dropDue_law (s : State) : (s.dropDue).law = s.law := rfl
@[simp] theorem State.dropDue_memory (s : State) : (s.dropDue).memory = s.memory := rfl
@[simp] theorem State.dropDue_freeBlocks (s : State) : (s.dropDue).freeBlocks = s.freeBlocks := rfl
@[simp] theorem State.dropDue_clips (s : State) : (s.dropDue).clips = s.clips := rfl
@[simp] theorem State.dropDue_units (s : State) : (s.dropDue).units = s.units := rfl
@[simp] theorem State.dropDue_reports (s : State) : (s.dropDue).reports = s.reports := rfl
@[simp] theorem State.dropDue_wordPos (s : State) : (s.dropDue).wordPos = s.wordPos := rfl
@[simp] theorem State.dropDue_lost (s : State) : (s.dropDue).lost = s.lost := rfl
@[simp] theorem State.dropDue_eventSeq (s : State) : (s.dropDue).eventSeq = s.eventSeq := rfl
@[simp] theorem State.dropDue_lineOut (s : State) : (s.dropDue).lineOut = s.lineOut := rfl
@[simp] theorem State.dropDue_choices (s : State) : (s.dropDue).choices = s.choices := rfl
@[simp] theorem State.dropDue_pending (s : State) : (s.dropDue).pending = s.pending := rfl

/-! flushTriggers -/

@[simp] theorem State.flushTriggers_lock (s : State) : (s.flushTriggers).lock = s.lock := rfl
@[simp] theorem State.flushTriggers_confirm (s : State) : (s.flushTriggers).confirm = s.confirm := rfl
@[simp] theorem State.flushTriggers_badRun (s : State) : (s.flushTriggers).badRun = s.badRun := rfl
@[simp] theorem State.flushTriggers_frameCount (s : State) : (s.flushTriggers).frameCount = s.frameCount := rfl
@[simp] theorem State.flushTriggers_lastGood (s : State) : (s.flushTriggers).lastGood = s.lastGood := rfl
@[simp] theorem State.flushTriggers_nextBit (s : State) : (s.flushTriggers).nextBit = s.nextBit := rfl
@[simp] theorem State.flushTriggers_waitingBits (s : State) : (s.flushTriggers).waitingBits = s.waitingBits := rfl
@[simp] theorem State.flushTriggers_resetLine (s : State) : (s.flushTriggers).resetLine = s.resetLine := rfl
@[simp] theorem State.flushTriggers_station (s : State) : (s.flushTriggers).station = s.station := rfl
@[simp] theorem State.flushTriggers_assembly (s : State) : (s.flushTriggers).assembly = s.assembly := rfl
@[simp] theorem State.flushTriggers_lastTaken (s : State) : (s.flushTriggers).lastTaken = s.lastTaken := rfl
@[simp] theorem State.flushTriggers_cueMap (s : State) : (s.flushTriggers).cueMap = s.cueMap := rfl
@[simp] theorem State.flushTriggers_triggers (s : State) : (s.flushTriggers).triggers = [] := rfl
@[simp] theorem State.flushTriggers_cueOut (s : State) : (s.flushTriggers).cueOut = [] := rfl
@[simp] theorem State.flushTriggers_table (s : State) : (s.flushTriggers).table = s.table := rfl
@[simp] theorem State.flushTriggers_lanes (s : State) : (s.flushTriggers).lanes = s.lanes := rfl
@[simp] theorem State.flushTriggers_slots (s : State) : (s.flushTriggers).slots = s.slots := rfl
@[simp] theorem State.flushTriggers_law (s : State) : (s.flushTriggers).law = s.law := rfl
@[simp] theorem State.flushTriggers_memory (s : State) : (s.flushTriggers).memory = s.memory := rfl
@[simp] theorem State.flushTriggers_freeBlocks (s : State) : (s.flushTriggers).freeBlocks = s.freeBlocks := rfl
@[simp] theorem State.flushTriggers_clips (s : State) : (s.flushTriggers).clips = s.clips := rfl
@[simp] theorem State.flushTriggers_units (s : State) : (s.flushTriggers).units = s.units := rfl
@[simp] theorem State.flushTriggers_reports (s : State) : (s.flushTriggers).reports = s.reports := rfl
@[simp] theorem State.flushTriggers_wordPos (s : State) : (s.flushTriggers).wordPos = s.wordPos := rfl
@[simp] theorem State.flushTriggers_lost (s : State) : (s.flushTriggers).lost = s.lost := rfl
@[simp] theorem State.flushTriggers_eventSeq (s : State) : (s.flushTriggers).eventSeq = s.eventSeq := rfl
@[simp] theorem State.flushTriggers_lineOut (s : State) : (s.flushTriggers).lineOut = s.lineOut := rfl
@[simp] theorem State.flushTriggers_choices (s : State) : (s.flushTriggers).choices = s.choices := rfl
@[simp] theorem State.flushTriggers_pending (s : State) : (s.flushTriggers).pending = s.pending := rfl

/-! The reads that name one thing -/

theorem State.lane_def (s : State) (i : Fin 8) : s.lane i = s.lanes[i] := rfl
theorem State.unit_def (s : State) (u : Fin 2) : s.unit u = s.units[u] := rfl

@[simp] theorem State.lane_setLane (s : State) (i j : Fin 8) (l : Lane) :
    (s.setLane i l).lane j = if j = i then l else s.lane j := by
  simp only [State.lane, State.setLane, Fin.getElem_fin, Vector.getElem_set, Fin.ext_iff, eq_comm]

@[simp] theorem State.unit_setUnit (s : State) (u w : Fin 2) (v : CaptureUnit) :
    (s.setUnit u v).unit w = if w = u then v else s.unit w := by
  simp only [State.unit, State.setUnit, Fin.getElem_fin, Vector.getElem_set, Fin.ext_iff, eq_comm]

@[simp] theorem State.slots_setSlots (s : State) (js : List (Fin 16)) (owner : Option (Fin 8)) (j : Fin 16) :
    (s.setSlots js owner).slots[j] = if j ∈ js then owner else s.slots[j] := by
  simp [State.setSlots]

theorem State.setLane_setLane (s : State) (i : Fin 8) (l m : Lane) : (s.setLane i l).setLane i m = s.setLane i m := by
  simp [State.setLane]

theorem State.setLane_self (s : State) (i : Fin 8) : s.setLane i (s.lane i) = s := by
  simp [State.setLane, State.lane]

/-- A read of lanes, units or clips is unchanged where the field it reads is. -/
theorem State.lane_congr {s t : State} (h : t.lanes = s.lanes) (i : Fin 8) : t.lane i = s.lane i := by
  simp only [State.lane, h]

theorem State.unit_congr {s t : State} (h : t.units = s.units) (u : Fin 2) : t.unit u = s.unit u := by
  simp only [State.unit, h]

theorem State.clip_congr {s t : State} (h : t.clips = s.clips) (c : Nat) : t.clip c = s.clip c := by
  simp only [State.clip, h]

/-! atNextCount -/

@[simp] theorem State.atNextCount_lock (s : State) (f : State → State) :
    (s.atNextCount f).lock = (f { s with frameCount := s.frameCount + 1 }).lock := rfl
@[simp] theorem State.atNextCount_confirm (s : State) (f : State → State) :
    (s.atNextCount f).confirm = (f { s with frameCount := s.frameCount + 1 }).confirm := rfl
@[simp] theorem State.atNextCount_badRun (s : State) (f : State → State) :
    (s.atNextCount f).badRun = (f { s with frameCount := s.frameCount + 1 }).badRun := rfl
@[simp] theorem State.atNextCount_frameCount (s : State) (f : State → State) :
    (s.atNextCount f).frameCount = s.frameCount := rfl
@[simp] theorem State.atNextCount_lastGood (s : State) (f : State → State) :
    (s.atNextCount f).lastGood = (f { s with frameCount := s.frameCount + 1 }).lastGood := rfl
@[simp] theorem State.atNextCount_nextBit (s : State) (f : State → State) :
    (s.atNextCount f).nextBit = (f { s with frameCount := s.frameCount + 1 }).nextBit := rfl
@[simp] theorem State.atNextCount_waitingBits (s : State) (f : State → State) :
    (s.atNextCount f).waitingBits = (f { s with frameCount := s.frameCount + 1 }).waitingBits := rfl
@[simp] theorem State.atNextCount_resetLine (s : State) (f : State → State) :
    (s.atNextCount f).resetLine = (f { s with frameCount := s.frameCount + 1 }).resetLine := rfl
@[simp] theorem State.atNextCount_station (s : State) (f : State → State) :
    (s.atNextCount f).station = (f { s with frameCount := s.frameCount + 1 }).station := rfl
@[simp] theorem State.atNextCount_assembly (s : State) (f : State → State) :
    (s.atNextCount f).assembly = (f { s with frameCount := s.frameCount + 1 }).assembly := rfl
@[simp] theorem State.atNextCount_lastTaken (s : State) (f : State → State) :
    (s.atNextCount f).lastTaken = (f { s with frameCount := s.frameCount + 1 }).lastTaken := rfl
@[simp] theorem State.atNextCount_cueMap (s : State) (f : State → State) :
    (s.atNextCount f).cueMap = (f { s with frameCount := s.frameCount + 1 }).cueMap := rfl
@[simp] theorem State.atNextCount_triggers (s : State) (f : State → State) :
    (s.atNextCount f).triggers = (f { s with frameCount := s.frameCount + 1 }).triggers := rfl
@[simp] theorem State.atNextCount_cueOut (s : State) (f : State → State) :
    (s.atNextCount f).cueOut = (f { s with frameCount := s.frameCount + 1 }).cueOut := rfl
@[simp] theorem State.atNextCount_table (s : State) (f : State → State) :
    (s.atNextCount f).table = (f { s with frameCount := s.frameCount + 1 }).table := rfl
@[simp] theorem State.atNextCount_lanes (s : State) (f : State → State) :
    (s.atNextCount f).lanes = (f { s with frameCount := s.frameCount + 1 }).lanes := rfl
@[simp] theorem State.atNextCount_slots (s : State) (f : State → State) :
    (s.atNextCount f).slots = (f { s with frameCount := s.frameCount + 1 }).slots := rfl
@[simp] theorem State.atNextCount_law (s : State) (f : State → State) :
    (s.atNextCount f).law = (f { s with frameCount := s.frameCount + 1 }).law := rfl
@[simp] theorem State.atNextCount_memory (s : State) (f : State → State) :
    (s.atNextCount f).memory = (f { s with frameCount := s.frameCount + 1 }).memory := rfl
@[simp] theorem State.atNextCount_freeBlocks (s : State) (f : State → State) :
    (s.atNextCount f).freeBlocks = (f { s with frameCount := s.frameCount + 1 }).freeBlocks := rfl
@[simp] theorem State.atNextCount_clips (s : State) (f : State → State) :
    (s.atNextCount f).clips = (f { s with frameCount := s.frameCount + 1 }).clips := rfl
@[simp] theorem State.atNextCount_units (s : State) (f : State → State) :
    (s.atNextCount f).units = (f { s with frameCount := s.frameCount + 1 }).units := rfl
@[simp] theorem State.atNextCount_reports (s : State) (f : State → State) :
    (s.atNextCount f).reports = (f { s with frameCount := s.frameCount + 1 }).reports := rfl
@[simp] theorem State.atNextCount_wordPos (s : State) (f : State → State) :
    (s.atNextCount f).wordPos = (f { s with frameCount := s.frameCount + 1 }).wordPos := rfl
@[simp] theorem State.atNextCount_lost (s : State) (f : State → State) :
    (s.atNextCount f).lost = (f { s with frameCount := s.frameCount + 1 }).lost := rfl
@[simp] theorem State.atNextCount_eventSeq (s : State) (f : State → State) :
    (s.atNextCount f).eventSeq = (f { s with frameCount := s.frameCount + 1 }).eventSeq := rfl
@[simp] theorem State.atNextCount_lineOut (s : State) (f : State → State) :
    (s.atNextCount f).lineOut = (f { s with frameCount := s.frameCount + 1 }).lineOut := rfl
@[simp] theorem State.atNextCount_choices (s : State) (f : State → State) :
    (s.atNextCount f).choices = (f { s with frameCount := s.frameCount + 1 }).choices := rfl
@[simp] theorem State.atNextCount_pending (s : State) (f : State → State) :
    (s.atNextCount f).pending = (f { s with frameCount := s.frameCount + 1 }).pending := rfl

end Sys2Proof.Machine
end

