-- ==== Sys2Proof/Laws/Reports.lean ====
section
/-! SUPPORT. The laws of the Report Queue: what an offer can do, what it leaves alone, and that the queue keeps its
bounds. -/

namespace Sys2Proof.Machine

/-- What judging one event report can do: admit it at the tail, or count it lost (R185). -/
theorem State.judgeEvent_cases (s : State) (e : Event) :
    (s.roomForEvent = true ∧ s.judgeEvent e = s.queueEvent e)
      ∨ (s.roomForEvent = false ∧ s.judgeEvent e = { s with lost := min 65535 (s.lost + 1) }) := by
  unfold State.judgeEvent
  cases s.roomForEvent <;> simp

/-- What offering one event report can do: judge it alone, or place LOST EVENTS first (R186). -/
theorem State.offerEvent_cases (s : State) (e : Event) :
    ((s.lost = 0 ∨ s.roomForEvent = false) ∧ s.offerEvent e = s.judgeEvent e)
      ∨ (s.lost ≠ 0 ∧ s.roomForEvent = true
        ∧ s.offerEvent e = ({ s.queueEvent (.lostEvents s.lost) with lost := 0 }).judgeEvent e) := by
  unfold State.offerEvent
  by_cases h : s.lost = 0 <;> cases hr : s.roomForEvent <;> simp [h]

@[simp] theorem State.offerEvents_nil (s : State) : s.offerEvents [] = s := rfl

@[simp] theorem State.offerEvents_cons (s : State) (e : Event) (es : List Event) :
    s.offerEvents (e :: es) = (s.offerEvent e).offerEvents es := rfl

theorem State.offerEvents_append (s : State) (es fs : List Event) :
    s.offerEvents (es ++ fs) = (s.offerEvents es).offerEvents fs := by
  simp [State.offerEvents, List.foldl_append]

theorem Event.code_ne_zero (e : Event) : e.code ≠ 0 := by cases e <;> simp [Event.code]

/-- Whatever every queued or lost event report keeps, a row of offers keeps. -/
theorem State.offerEvents_induction {P : State → Prop} (hq : ∀ s e, s.roomForEvent = true → P s → P (s.queueEvent e))
    (hl : ∀ s n, n ≤ 65535 → P s → P { s with lost := n }) (es : List Event) : ∀ s, P s → P (s.offerEvents es) := by
  have hj : ∀ s e, P s → P (s.judgeEvent e) := by
    intro s e h
    rcases s.judgeEvent_cases e with ⟨hr, h'⟩ | ⟨-, h'⟩ <;> rw [h']
    · exact hq _ _ hr h
    · exact hl _ _ (Nat.min_le_left ..) h
  induction es with
  | nil => exact fun _ h => h
  | cons e es ih =>
    intro s h
    refine ih _ ?_
    rcases s.offerEvent_cases e with ⟨-, h'⟩ | ⟨-, hr, h'⟩ <;> rw [h']
    · exact hj _ _ h
    · exact hj _ _ (hl _ 0 (Nat.zero_le _) (hq _ _ hr h))

/-- Offers change the reports, the lost-events count and the event sequence, nothing else. -/
theorem State.offerEvents_frame (s : State) (es : List Event) :
    s.offerEvents es = { s with reports := (s.offerEvents es).reports, lost := (s.offerEvents es).lost,
                                eventSeq := (s.offerEvents es).eventSeq } := by
  refine State.offerEvents_induction
    (P := fun t => t = { s with reports := t.reports, lost := t.lost, eventSeq := t.eventSeq }) ?_ ?_ es s rfl
  · intro t e _ h; rw [h]; rfl
  · intro t n _ h; rw [h]

section frame
variable (s : State) (es : List Event)

@[simp] theorem State.offerEvents_lock : (s.offerEvents es).lock = s.lock := by rw [s.offerEvents_frame es]
@[simp] theorem State.offerEvents_confirm : (s.offerEvents es).confirm = s.confirm := by rw [s.offerEvents_frame es]
@[simp] theorem State.offerEvents_badRun : (s.offerEvents es).badRun = s.badRun := by rw [s.offerEvents_frame es]
@[simp] theorem State.offerEvents_frameCount : (s.offerEvents es).frameCount = s.frameCount := by
  rw [s.offerEvents_frame es]
@[simp] theorem State.offerEvents_lastGood : (s.offerEvents es).lastGood = s.lastGood := by rw [s.offerEvents_frame es]
@[simp] theorem State.offerEvents_nextBit : (s.offerEvents es).nextBit = s.nextBit := by rw [s.offerEvents_frame es]
@[simp] theorem State.offerEvents_waitingBits : (s.offerEvents es).waitingBits = s.waitingBits := by
  rw [s.offerEvents_frame es]
@[simp] theorem State.offerEvents_resetLine : (s.offerEvents es).resetLine = s.resetLine := by rw [s.offerEvents_frame es]
@[simp] theorem State.offerEvents_station : (s.offerEvents es).station = s.station := by rw [s.offerEvents_frame es]
@[simp] theorem State.offerEvents_assembly : (s.offerEvents es).assembly = s.assembly := by rw [s.offerEvents_frame es]
@[simp] theorem State.offerEvents_lastTaken : (s.offerEvents es).lastTaken = s.lastTaken := by rw [s.offerEvents_frame es]
@[simp] theorem State.offerEvents_cueMap : (s.offerEvents es).cueMap = s.cueMap := by rw [s.offerEvents_frame es]
@[simp] theorem State.offerEvents_triggers : (s.offerEvents es).triggers = s.triggers := by rw [s.offerEvents_frame es]
@[simp] theorem State.offerEvents_cueOut : (s.offerEvents es).cueOut = s.cueOut := by rw [s.offerEvents_frame es]
@[simp] theorem State.offerEvents_table : (s.offerEvents es).table = s.table := by rw [s.offerEvents_frame es]
@[simp] theorem State.offerEvents_lanes : (s.offerEvents es).lanes = s.lanes := by rw [s.offerEvents_frame es]
@[simp] theorem State.offerEvents_slots : (s.offerEvents es).slots = s.slots := by rw [s.offerEvents_frame es]
@[simp] theorem State.offerEvents_law : (s.offerEvents es).law = s.law := by rw [s.offerEvents_frame es]
@[simp] theorem State.offerEvents_memory : (s.offerEvents es).memory = s.memory := by rw [s.offerEvents_frame es]
@[simp] theorem State.offerEvents_freeBlocks : (s.offerEvents es).freeBlocks = s.freeBlocks := by
  rw [s.offerEvents_frame es]
@[simp] theorem State.offerEvents_clips : (s.offerEvents es).clips = s.clips := by rw [s.offerEvents_frame es]
@[simp] theorem State.offerEvents_units : (s.offerEvents es).units = s.units := by rw [s.offerEvents_frame es]
@[simp] theorem State.offerEvents_wordPos : (s.offerEvents es).wordPos = s.wordPos := by rw [s.offerEvents_frame es]
@[simp] theorem State.offerEvents_lineOut : (s.offerEvents es).lineOut = s.lineOut := by rw [s.offerEvents_frame es]
@[simp] theorem State.offerEvents_choices : (s.offerEvents es).choices = s.choices := by rw [s.offerEvents_frame es]
@[simp] theorem State.offerEvents_pending : (s.offerEvents es).pending = s.pending := by rw [s.offerEvents_frame es]

end frame

/-- Offers only add reports at the tail, none of them an acknowledgement. -/
theorem State.offerEvents_reports (s : State) (es : List Event) :
    ∃ added, (s.offerEvents es).reports = s.reports ++ added ∧ ∀ r ∈ added, r.code ≠ 0 := by
  refine State.offerEvents_induction (P := fun t => ∃ added, t.reports = s.reports ++ added ∧ ∀ r ∈ added, r.code ≠ 0)
    ?_ ?_ es s ⟨[], by simp⟩
  · rintro t e - ⟨added, h, hc⟩
    refine ⟨added ++ [{ code := e.code, seq := t.eventSeq, body := toPayloads e.words }], by simp [h], fun r hr => ?_⟩
    rcases List.mem_append.mp hr with hr | hr
    · exact hc r hr
    · rw [List.mem_singleton.mp hr]; exact e.code_ne_zero
  · rintro t n - ⟨added, h, hc⟩
    exact ⟨added, h, hc⟩

/-- Offers keep the two bounds of the queue and the bound of the lost-events count (R185). -/
theorem State.offerEvents_bounds {s : State} (h : s.reports.length ≤ 32 ∧ s.eventCount ≤ 24 ∧ s.lost ≤ 65535)
    (es : List Event) : (s.offerEvents es).reports.length ≤ 32 ∧ (s.offerEvents es).eventCount ≤ 24
      ∧ (s.offerEvents es).lost ≤ 65535 := by
  refine State.offerEvents_induction (P := fun t => t.reports.length ≤ 32 ∧ t.eventCount ≤ 24 ∧ t.lost ≤ 65535)
    ?_ ?_ es s h
  · rintro t e hr ⟨-, -, hl⟩
    simp only [State.roomForEvent, Bool.and_eq_true, decide_eq_true_eq] at hr
    refine ⟨by simp; omega, ?_, hl⟩
    have hc : (e.code != 0) = true := by simpa using e.code_ne_zero
    simp only [State.eventCount, State.queueEvent_reports, List.countP_append, List.countP_cons, List.countP_nil, hc] at hr ⊢
    simp; omega
  · rintro t n hn ⟨h1, h2, -⟩
    exact ⟨h1, h2, hn⟩

/-- The control words of a report are its HEAD, its body words and its END: two more than its body. -/
theorem Report.words_length (station : BitVec 5) (r : Report) : (r.words station).length = r.body.length + 2 := by
  simp [Report.words]

end Sys2Proof.Machine
end

