-- ==== Sys2Proof/Laws/Tables.lean ====
section
/-! SUPPORT. The laws of the sparse tables, of the sample memory and of the Clip Directory kept in one: what a read gives
after each write, and that every write keeps the canonical form. -/

namespace Sys2Proof.Machine

/-! Sparse tables -/

theorem sparseSorted_tail {α : Type} {p : Nat × α} {l : List (Nat × α)} (h : sparseSorted (p :: l) = true) :
    sparseSorted l = true := by
  obtain ⟨b, w⟩ := p
  cases l with
  | nil => rfl
  | cons q l => obtain ⟨c, x⟩ := q; simp_all [sparseSorted]

/-- In a sorted table every later number is greater than the first. -/
theorem sparseSorted_head_lt {α : Type} {p : Nat × α} {l : List (Nat × α)} (h : sparseSorted (p :: l) = true) :
    ∀ q ∈ l, p.1 < q.1 := by
  induction l generalizing p with
  | nil => simp
  | cons r l ih =>
    obtain ⟨b, w⟩ := p
    obtain ⟨c, x⟩ := r
    simp only [sparseSorted, Bool.and_eq_true, decide_eq_true_eq] at h
    intro q hq
    rcases List.mem_cons.mp hq with rfl | hq
    · exact h.1
    · exact Nat.lt_trans h.1 (ih h.2 q hq)

theorem sparseSorted_cons {α : Type} {p : Nat × α} {l : List (Nat × α)} (hl : sparseSorted l = true)
    (h : ∀ q ∈ l, p.1 < q.1) : sparseSorted (p :: l) = true := by
  cases l with
  | nil => rfl
  | cons r l => simpa [sparseSorted, hl] using h r (by simp)

/-- What a table holds after an insertion. -/
theorem sparseFind_insert {α : Type} (l : List (Nat × α)) (a j : Nat) (v : α) :
    sparseFind (sparseInsert l a v) j = if j = a then some v else sparseFind l j := by
  induction l with
  | nil => simp [sparseInsert, sparseFind]
  | cons p l ih =>
    obtain ⟨b, w⟩ := p
    simp only [sparseInsert]
    split
    · simp only [sparseFind]
    · split
      · subst_vars; simp only [sparseFind]; split <;> simp_all
      · simp only [sparseFind, ih]
        split <;> simp_all
        intro h; subst h; simp_all

theorem sparseFind_none_of_head {α : Type} {l : List (Nat × α)} :
    ∀ {b : Nat} {w : α}, sparseSorted ((b, w) :: l) = true → ∀ j ≤ b, sparseFind l j = none := by
  induction l with
  | nil => intros; rfl
  | cons p l ih =>
    obtain ⟨c, x⟩ := p
    intro b w h j hj
    simp only [sparseSorted, Bool.and_eq_true, decide_eq_true_eq] at h
    simp only [sparseFind]
    rw [if_neg (by omega)]
    exact ih h.2 j (by omega)

/-- What a sorted table holds after a removal. -/
theorem sparseFind_erase {α : Type} {l : List (Nat × α)} (hl : sparseSorted l = true) (a j : Nat) :
    sparseFind (sparseErase l a) j = if j = a then none else sparseFind l j := by
  induction l with
  | nil => simp [sparseErase, sparseFind]
  | cons p l ih =>
    obtain ⟨b, w⟩ := p
    simp only [sparseErase]
    split
    · subst_vars
      simp only [sparseFind]
      split
      · subst_vars; exact sparseFind_none_of_head hl _ (Nat.le_refl _)
      · rfl
    · simp only [sparseFind, ih (sparseSorted_tail hl)]
      split <;> simp_all
      intro h; subst h; simp_all

theorem mem_of_sparseFind {α : Type} {l : List (Nat × α)} {a : Nat} {v : α} (h : sparseFind l a = some v) : (a, v) ∈ l := by
  induction l with
  | nil => cases h
  | cons p l ih =>
    obtain ⟨b, w⟩ := p
    simp only [sparseFind] at h
    split at h
    · cases h; subst_vars; simp
    · exact List.mem_cons_of_mem _ (ih h)

/-- In a sorted table a listed pair is what its number finds. -/
theorem sparseFind_of_mem {α : Type} {l : List (Nat × α)} (hl : sparseSorted l = true) {p : Nat × α} (h : p ∈ l) :
    sparseFind l p.1 = some p.2 := by
  induction l with
  | nil => cases h
  | cons q l ih =>
    obtain ⟨b, w⟩ := q
    rcases List.mem_cons.mp h with rfl | h'
    · simp [sparseFind]
    · have := sparseSorted_head_lt hl p h'
      simp only [sparseFind]
      rw [if_neg (Nat.ne_of_gt this)]
      exact ih (sparseSorted_tail hl) h'

theorem mem_sparseInsert {α : Type} {l : List (Nat × α)} {a : Nat} {v : α} {p : Nat × α} (h : p ∈ sparseInsert l a v) :
    p = (a, v) ∨ p ∈ l := by
  induction l with
  | nil => simpa [sparseInsert] using h
  | cons q l ih =>
    obtain ⟨b, w⟩ := q
    simp only [sparseInsert] at h
    split at h
    · simpa using h
    · split at h
      · rcases List.mem_cons.mp h with h | h
        · exact .inl h
        · exact .inr (List.mem_cons_of_mem _ h)
      · rcases List.mem_cons.mp h with h | h
        · exact .inr (h ▸ List.mem_cons_self)
        · exact (ih h).imp_right (List.mem_cons_of_mem _)

theorem mem_sparseErase {α : Type} {l : List (Nat × α)} {a : Nat} {p : Nat × α} (h : p ∈ sparseErase l a) : p ∈ l := by
  induction l with
  | nil => cases h
  | cons q l ih =>
    obtain ⟨b, w⟩ := q
    simp only [sparseErase] at h
    split at h
    · exact List.mem_cons_of_mem _ h
    · rcases List.mem_cons.mp h with h | h
      · exact h ▸ List.mem_cons_self
      · exact List.mem_cons_of_mem _ (ih h)

/-- An insertion keeps the canonical form. -/
theorem sparseSorted_insert {α : Type} {l : List (Nat × α)} (hl : sparseSorted l = true) (a : Nat) (v : α) :
    sparseSorted (sparseInsert l a v) = true := by
  induction l with
  | nil => rfl
  | cons p l ih =>
    obtain ⟨b, w⟩ := p
    have hlt := sparseSorted_head_lt hl
    have htl := sparseSorted_tail hl
    simp only [sparseInsert]
    split
    · rename_i h; simp [sparseSorted, h, hl]
    · split
      · rename_i h; subst h; exact sparseSorted_cons htl hlt
      · refine sparseSorted_cons (ih htl) fun q hq => ?_
        rcases mem_sparseInsert hq with rfl | hq
        · simp only; omega
        · exact hlt q hq

/-- A removal keeps the canonical form. -/
theorem sparseSorted_erase {α : Type} {l : List (Nat × α)} (hl : sparseSorted l = true) (a : Nat) :
    sparseSorted (sparseErase l a) = true := by
  induction l with
  | nil => rfl
  | cons p l ih =>
    obtain ⟨b, w⟩ := p
    simp only [sparseErase]
    split
    · exact sparseSorted_tail hl
    · exact sparseSorted_cons (ih (sparseSorted_tail hl)) fun q hq => sparseSorted_head_lt hl q (mem_sparseErase hq)

/-! The sample memory (R64) -/

/-- Every write of the sample memory keeps its canonical form. -/
theorem Memory.write_wf {m : List (Nat × Sample)} (h : Memory.wf m = true) (a : Nat) (x : Sample) :
    Memory.wf (Memory.write m a x) = true := sparseSorted_insert h a x

/-- The memory of the state after reset has the canonical form. -/
theorem Memory.reset_wf : Memory.wf State.reset.memory = true := rfl

/-- A read after a write: the sample written at its place, every other place as before. -/
theorem Memory.read_write (m : List (Nat × Sample)) (a b : Nat) (x : Sample) :
    Memory.read (Memory.write m a x) b = if b = a then some x else Memory.read m b := sparseFind_insert m a b x

theorem sampleAddress_inj {b b' o o' : Nat} (h : o < 256) (h' : o' < 256) :
    sampleAddress b o = sampleAddress b' o' ↔ b = b' ∧ o = o' := by
  unfold sampleAddress; omega

/-! Splice Table -/

theorem State.record_setRecord (s : State) (index j : Nat) (r : Record) :
    (s.setRecord index r).record j = if j = index then some r else s.record j := sparseFind_insert _ _ _ _

theorem State.record_eraseRecord {s : State} (h : sparseSorted s.table = true) (index j : Nat) :
    (s.eraseRecord index).record j = if j = index then none else s.record j := sparseFind_erase h _ _

/-! Clip Directory -/

/-- What the Clip Directory holds after one entry is replaced. -/
theorem State.clip_setClip {s : State} (h : sparseSorted s.clips = true) (c d : Nat) (v : Clip) :
    (s.setClip c v).clip d = if d = c then v else s.clip d := by
  unfold State.clip State.setClip
  by_cases hv : v = Clip.freed
  · simp only [if_pos hv, sparseFind_erase h]
    split <;> simp_all
  · simp only [if_neg hv, sparseFind_insert]
    split <;> simp_all

theorem State.sorted_setClip {s : State} (h : sparseSorted s.clips = true) (c : Nat) (v : Clip) :
    sparseSorted (s.setClip c v).clips = true := by
  unfold State.setClip
  by_cases hv : v = Clip.freed
  · simpa only [if_pos hv] using sparseSorted_erase h c
  · simpa only [if_neg hv] using sparseSorted_insert h c v

/-- A listed clip after one entry is replaced: the new entry, not FREE, or a clip listed before. -/
theorem State.mem_setClip {s : State} {c : Nat} {v : Clip} {p : Nat × Clip} (h : p ∈ (s.setClip c v).clips) :
    (p = (c, v) ∧ v ≠ Clip.freed) ∨ p ∈ s.clips := by
  unfold State.setClip at h
  by_cases hv : v = Clip.freed
  · simp only [if_pos hv] at h
    exact .inr (mem_sparseErase h)
  · simp only [if_neg hv] at h
    exact (mem_sparseInsert h).imp_left fun h => ⟨h, hv⟩

/-- A listed clip of a sorted directory is what its number reads as. -/
theorem State.clip_of_mem {s : State} (h : sparseSorted s.clips = true) {p : Nat × Clip} (hp : p ∈ s.clips) :
    s.clip p.1 = p.2 := by
  simp [State.clip, sparseFind_of_mem h hp]

/-- A clip that does not read as FREE with the values of R68 is listed. -/
theorem State.mem_of_clip {s : State} {c : Nat} (h : s.clip c ≠ Clip.freed) : (c, s.clip c) ∈ s.clips := by
  unfold State.clip at h ⊢
  cases hf : sparseFind s.clips c with
  | none => simp [hf] at h
  | some v => simpa [hf] using mem_of_sparseFind hf

end Sys2Proof.Machine
end

