-- ==== Sys2Proof/Laws/Clips.lean ====
section
/-! SUPPORT. The laws of the Clip Store: uses, claims, returns and writes, what each leaves alone, and where the blocks
stand afterwards. -/

namespace Sys2Proof.Machine

/-! Where the blocks stand (R65) -/

/-- The blocks of every chain, in the order of the Clip Directory. -/
def State.chains (s : State) : List Nat := s.clips.flatMap fun p => p.2.chain

theorem State.allBlocks_eq (s : State) : s.allBlocks = s.freeBlocks ++ s.chains := rfl

theorem chains_insert {l : List (Nat × Clip)} (hl : sparseSorted l = true) (c : Nat) (v : Clip) :
    ((sparseInsert l c v).flatMap (fun p => p.2.chain) ++ ((sparseFind l c).getD Clip.freed).chain).Perm
      (l.flatMap (fun p => p.2.chain) ++ v.chain) := by
  induction l with
  | nil => simp [sparseInsert, sparseFind, Clip.freed]
  | cons p l ih =>
    obtain ⟨b, w⟩ := p
    simp only [sparseInsert]
    split
    · rename_i h
      have hn : sparseFind ((b, w) :: l) c = none := by
        simp only [sparseFind]
        rw [if_neg (by omega)]
        exact sparseFind_none_of_head hl c (by omega)
      simp only [hn, Option.getD_none, Clip.freed, List.append_nil, List.flatMap_cons]
      exact List.perm_append_comm
    · split
      · subst_vars
        simp only [sparseFind, if_true, Option.getD_some, List.flatMap_cons]
        refine (List.perm_append_comm (l₁ := v.chain ++ _)).trans ?_
        rw [List.append_assoc]
        exact List.Perm.append_left _ List.perm_append_comm
      · rename_i h1 h2
        simp only [sparseFind, if_neg h2, List.flatMap_cons, List.append_assoc]
        exact List.Perm.append_left _ (ih (sparseSorted_tail hl))

theorem chains_erase {l : List (Nat × Clip)} (hl : sparseSorted l = true) (c : Nat) :
    ((sparseErase l c).flatMap (fun p => p.2.chain) ++ ((sparseFind l c).getD Clip.freed).chain).Perm
      (l.flatMap fun p => p.2.chain) := by
  induction l with
  | nil => simp [sparseErase, sparseFind, Clip.freed]
  | cons p l ih =>
    obtain ⟨b, w⟩ := p
    simp only [sparseErase]
    split
    · subst_vars
      simp only [sparseFind, if_true, Option.getD_some, List.flatMap_cons]
      exact List.perm_append_comm
    · rename_i h
      simp only [sparseFind, if_neg h, List.flatMap_cons, List.append_assoc]
      exact List.Perm.append_left _ (ih (sparseSorted_tail hl))

/-- Replacing a clip's entry puts its new chain in the place of its old one. -/
theorem State.chains_setClip {s : State} (h : sparseSorted s.clips = true) (c : Nat) (v : Clip) :
    ((s.setClip c v).chains ++ (s.clip c).chain).Perm (s.chains ++ v.chain) := by
  unfold State.chains State.setClip State.clip
  by_cases hv : v = Clip.freed
  · rw [if_pos hv, show v.chain = [] by rw [hv]; rfl, List.append_nil]
    exact chains_erase h c
  · simpa only [if_neg hv] using chains_insert h c v

/-- Replacing a clip's entry by one of the same chain leaves every block in its place. -/
theorem State.allBlocks_setClip_same {s : State} (h : sparseSorted s.clips = true) {c : Nat} {v : Clip}
    (hv : v.chain = (s.clip c).chain) : (s.setClip c v).allBlocks.Perm s.allBlocks := by
  have := s.chains_setClip h c v
  rw [hv] at this
  simp only [State.allBlocks_eq, State.setClip_freeBlocks]
  exact List.Perm.append_left _ ((List.perm_append_right_iff _).mp this)

/-! Uses (R76) -/

theorem State.clip_addUse {s : State} (h : sparseSorted s.clips = true) (c d : Nat) :
    (s.addUse c).clip d = if d = c then { s.clip c with uses := (s.clip c).uses + 1 } else s.clip d :=
  State.clip_setClip h c d _

theorem State.clip_releaseUse {s : State} (h : sparseSorted s.clips = true) (c d : Nat) :
    (s.releaseUse c).clip d = if d = c then { s.clip c with uses := (s.clip c).uses - 1 } else s.clip d :=
  State.clip_setClip h c d _

theorem State.addUse_frame (s : State) (c : Nat) : s.addUse c = { s with clips := (s.addUse c).clips } := rfl

theorem State.releaseUse_frame (s : State) (c : Nat) : s.releaseUse c = { s with clips := (s.releaseUse c).clips } := rfl

/-- One use for each voice: what every clip then counts, and nothing but the Clip Directory changes. -/
theorem addUses {s : State} (h : sparseSorted s.clips = true) (vs : List Voice) :
    let t := vs.foldl (fun s v => s.addUse v.clip.val) s
    sparseSorted t.clips = true ∧ t = { s with clips := t.clips }
      ∧ ∀ c, t.clip c = { s.clip c with uses := (s.clip c).uses + vs.countP fun v => v.clip.val == c } := by
  induction vs generalizing s with
  | nil => exact ⟨h, rfl, fun c => rfl⟩
  | cons v vs ih =>
    obtain ⟨h1, h2, h3⟩ := ih (s := s.addUse v.clip.val) (State.sorted_setClip h _ _)
    refine ⟨h1, ?_, fun c => ?_⟩
    · exact h2.trans (by rw [s.addUse_frame]; rfl)
    · rw [List.foldl_cons, h3 c, State.clip_addUse h]
      by_cases hc : v.clip.val = c
      · subst hc; simp [Nat.add_assoc, Nat.add_comm 1]
      · have hc' : ¬c = v.clip.val := fun h => hc h.symm
        simp [hc, hc']

/-- One use less for each voice. -/
theorem releaseUses {s : State} (h : sparseSorted s.clips = true) (vs : List Voice) :
    let t := vs.foldl (fun s v => s.releaseUse v.clip.val) s
    sparseSorted t.clips = true ∧ t = { s with clips := t.clips }
      ∧ ∀ c, t.clip c = { s.clip c with uses := (s.clip c).uses - vs.countP fun v => v.clip.val == c } := by
  induction vs generalizing s with
  | nil => exact ⟨h, rfl, fun c => rfl⟩
  | cons v vs ih =>
    obtain ⟨h1, h2, h3⟩ := ih (s := s.releaseUse v.clip.val) (State.sorted_setClip h _ _)
    refine ⟨h1, ?_, fun c => ?_⟩
    · exact h2.trans (by rw [s.releaseUse_frame]; rfl)
    · rw [List.foldl_cons, h3 c, State.clip_releaseUse h]
      by_cases hc : v.clip.val = c
      · subst hc; simp [Nat.sub_sub, Nat.add_comm 1]
      · have hc' : ¬c = v.clip.val := fun h => hc h.symm
        simp [hc, hc']

/-! Returns (R67, R76) -/

theorem State.freeClip_frame (s : State) (c : Nat) :
    s.freeClip c = { s with clips := (s.freeClip c).clips, freeBlocks := s.freeBlocks ++ (s.clip c).chain } := rfl

/-- A clip made FREE reads as FREE, every other clip as before. -/
theorem State.clip_freeClip {s : State} (h : sparseSorted s.clips = true) (c d : Nat) :
    (s.freeClip c).clip d = if d = c then Clip.freed else s.clip d :=
  State.clip_setClip (v := Clip.freed) h c d

/-- A clip made FREE returns its blocks: none is lost and none stands twice. -/
theorem State.allBlocks_freeClip {s : State} (h : sparseSorted s.clips = true) (c : Nat) :
    (s.freeClip c).allBlocks.Perm s.allBlocks := by
  have := s.chains_setClip h c Clip.freed
  simp only [Clip.freed, List.append_nil] at this
  simp only [State.allBlocks_eq, State.freeClip_freeBlocks, List.append_assoc]
  refine List.Perm.append_left _ (List.perm_append_comm.trans ?_)
  exact this

/-- Freeing a row of clips changes the Clip Directory and the Free Block List alone. -/
theorem State.freeClips_frame (cs : List Nat) (s : State) :
    cs.foldl State.freeClip s = { s with
      clips := (cs.foldl State.freeClip s).clips, freeBlocks := (cs.foldl State.freeClip s).freeBlocks } := by
  induction cs generalizing s with
  | nil => rfl
  | cons c cs ih => rw [List.foldl_cons, ih (s.freeClip c)]; rfl

/-- Freeing a row of clips: each reads as FREE, every other as before, the directory stays sorted and each block stands
where it can be found. -/
theorem State.freeClips {s : State} (h : sparseSorted s.clips = true) (cs : List Nat) :
    sparseSorted (cs.foldl State.freeClip s).clips = true
      ∧ (∀ d, (cs.foldl State.freeClip s).clip d = if d ∈ cs then Clip.freed else s.clip d)
      ∧ (cs.foldl State.freeClip s).allBlocks.Perm s.allBlocks := by
  induction cs generalizing s with
  | nil => exact ⟨h, fun d => by simp, List.Perm.refl _⟩
  | cons c cs ih =>
    obtain ⟨h1, h2, h3⟩ := ih (s := s.freeClip c) (State.sorted_setClip h c Clip.freed)
    refine ⟨h1, fun d => ?_, h3.trans (State.allBlocks_freeClip h c)⟩
    rw [List.foldl_cons, h2 d, State.clip_freeClip h]
    by_cases hd : d = c <;> simp [hd]

/-- Freeing the DOOMED clips without uses: exactly they become FREE, in a sorted directory. -/
theorem State.freeDoomed_spec {s : State} (h : sparseSorted s.clips = true) :
    sparseSorted s.freeDoomed.1.clips = true
      ∧ (∀ d, s.freeDoomed.1.clip d
          = if (s.clip d).state = .doomed ∧ (s.clip d).uses = 0 then Clip.freed else s.clip d)
      ∧ s.freeDoomed.1.allBlocks.Perm s.allBlocks := by
  obtain ⟨h1, h2, h3⟩ := State.freeClips h s.doomedUnused
  refine ⟨h1, fun d => (h2 d).trans ?_, h3⟩
  have hm : d ∈ s.doomedUnused ↔ (s.clip d).state = .doomed ∧ (s.clip d).uses = 0 := by
    simp only [State.doomedUnused, List.mem_map, List.mem_filter, Bool.and_eq_true, beq_iff_eq]
    constructor
    · rintro ⟨p, ⟨hp, hd, hu⟩, rfl⟩
      rw [State.clip_of_mem h hp]
      exact ⟨hd, hu⟩
    · rintro ⟨hd, hu⟩
      exact ⟨(d, s.clip d), ⟨State.mem_of_clip fun hf => by simp [hf, Clip.freed] at hd, hd, hu⟩, rfl⟩
  simp only [hm]

theorem State.freeDoomed_frame (s : State) :
    s.freeDoomed.1 = { s with clips := s.freeDoomed.1.clips, freeBlocks := s.freeDoomed.1.freeBlocks } :=
  State.freeClips_frame _ s

/-! Writes (R66, R69, R73) -/

/-- Everything a write to a clip can do: fail for want of a block, or write at position length, with a block claimed
just when that position is a multiple of 256. -/
theorem State.writeClip_cases (s : State) (c : Nat) (x : Sample) :
    ((s.clip c).length % 256 = 0 ∧ s.freeBlocks = [] ∧ s.writeClip c x = none)
      ∨ (∃ block rest, (s.clip c).length % 256 = 0 ∧ s.freeBlocks = block :: rest
        ∧ s.writeClip c x = some { s.setClip c
            { s.clip c with length := (s.clip c).length + 1, chain := (s.clip c).chain ++ [block] } with
            memory := Memory.write s.memory (sampleAddress block 0) x, freeBlocks := rest })
      ∨ ((s.clip c).length % 256 ≠ 0 ∧ s.writeClip c x = some { s.setClip c
            { s.clip c with length := (s.clip c).length + 1 } with
            memory := Memory.write s.memory
              (sampleAddress ((s.clip c).chain.getD ((s.clip c).length / 256) 0) ((s.clip c).length % 256)) x }) := by
  unfold State.writeClip
  by_cases h : (s.clip c).length % 256 = 0
  · cases hf : s.freeBlocks <;> simp [h]
  · simp [h]

theorem State.writeClip_frame {s t : State} {c : Nat} {x : Sample} (h : s.writeClip c x = some t) :
    t = { s with clips := t.clips, memory := t.memory, freeBlocks := t.freeBlocks } := by
  rcases s.writeClip_cases c x with ⟨-, -, h'⟩ | ⟨b, r, -, -, h'⟩ | ⟨-, h'⟩ <;> rw [h'] at h <;> cases h <;> rfl

/-- A write keeps the directory sorted, the memory in canonical form and each block in one place. -/
theorem State.writeClip_keeps {s t : State} {c : Nat} {x : Sample} (hs : sparseSorted s.clips = true)
    (hm : Memory.wf s.memory = true) (h : s.writeClip c x = some t) :
    sparseSorted t.clips = true ∧ Memory.wf t.memory = true ∧ t.allBlocks.Perm s.allBlocks := by
  rcases s.writeClip_cases c x with ⟨-, -, h'⟩ | ⟨b, r, -, hf, h'⟩ | ⟨-, h'⟩ <;> rw [h'] at h <;> cases h
  · refine ⟨State.sorted_setClip hs _ _, Memory.write_wf hm _ _, ?_⟩
    have hc := s.chains_setClip hs c
      { s.clip c with length := (s.clip c).length + 1, chain := (s.clip c).chain ++ [b] }
    have hc' : ((s.setClip c { s.clip c with length := (s.clip c).length + 1, chain := (s.clip c).chain ++ [b] }).chains).Perm
        (b :: s.chains) := by
      rw [← List.perm_append_right_iff (s.clip c).chain]
      refine hc.trans ?_
      rw [← List.append_assoc]
      refine List.perm_append_comm.trans ?_
      simp
    simp only [State.allBlocks_eq, hf]
    refine (List.Perm.append_left r hc').trans ?_
    exact List.perm_middle
  · exact ⟨State.sorted_setClip hs _ _, Memory.write_wf hm _ _, State.allBlocks_setClip_same hs rfl⟩

/-- After a write: the clip one sample longer, its chain grown by what was claimed, every other clip as before. -/
theorem State.writeClip_clip {s t : State} {c : Nat} {x : Sample} (hs : sparseSorted s.clips = true)
    (h : s.writeClip c x = some t) :
    t.clip c = { s.clip c with
        length := (s.clip c).length + 1
        chain := (s.clip c).chain ++ if (s.clip c).length % 256 = 0 then s.freeBlocks.take 1 else [] }
      ∧ (∀ d, d ≠ c → t.clip d = s.clip d)
      ∧ t.freeBlocks = if (s.clip c).length % 256 = 0 then s.freeBlocks.drop 1 else s.freeBlocks := by
  rcases s.writeClip_cases c x with ⟨-, -, h'⟩ | ⟨b, r, h0, hf, h'⟩ | ⟨h0, h'⟩ <;> rw [h'] at h <;> cases h
  · refine ⟨?_, fun d hd => ?_, by simp [h0, hf]⟩
    · refine (State.clip_setClip hs c c _).trans ?_
      simp [h0, hf]
    · exact (State.clip_setClip hs c d _).trans (if_neg hd)
  · refine ⟨?_, fun d hd => ?_, by simp [h0]⟩
    · refine (State.clip_setClip hs c c _).trans ?_
      simp [h0]
    · exact (State.clip_setClip hs c d _).trans (if_neg hd)

/-- The place a write stores to, and that every other place of the memory reads as before. -/
theorem State.writeClip_memory {s t : State} {c : Nat} {x : Sample} (hs : sparseSorted s.clips = true)
    (hl : (s.clip c).chain.length = blocksFor (s.clip c).length) (h : s.writeClip c x = some t) (a : Nat) :
    Memory.read t.memory a
      = if a = sampleAddress ((t.clip c).chain.getD ((s.clip c).length / 256) 0) ((s.clip c).length % 256) then some x
        else Memory.read s.memory a := by
  have hc := (State.writeClip_clip hs h).1
  rcases s.writeClip_cases c x with ⟨-, -, h'⟩ | ⟨b, r, h0, hf, h'⟩ | ⟨h0, h'⟩ <;> rw [h'] at h <;> cases h
  · have hlen : (s.clip c).chain.length = (s.clip c).length / 256 := by rw [hl, blocksFor]; omega
    have hb : ((s.clip c).chain ++ [b]).getD ((s.clip c).length / 256) 0 = b := by
      simp [← hlen]
    rw [hc]
    simp only [h0, hf, if_true, List.take_succ_cons, List.take_zero, hb]
    exact Memory.read_write _ _ _ _
  · rw [hc]
    simp only [h0, if_false, List.append_nil]
    exact Memory.read_write _ _ _ _

end Sys2Proof.Machine
end

