-- ==== Sys2Proof/Laws/Triggers.lean ====
section
/-! SUPPORT. The laws of the Trigger Unit: where an entry is inserted, what admission and forwarding can do, and what they
leave alone. -/

namespace Sys2Proof.Machine

/-- Where an entry goes: after entries not later than it, before the first later one (R110). -/
theorem insertTrigger_split (e : TriggerEntry) (q : List TriggerEntry) :
    ∃ before after, q = before ++ after ∧ insertTrigger e q = before ++ e :: after
      ∧ (∀ x ∈ before, laterThan x.due e.due = false) ∧ ∀ x, after.head? = some x → laterThan x.due e.due = true := by
  induction q with
  | nil => exact ⟨[], [], rfl, rfl, by simp, by simp⟩
  | cons h rest ih =>
    by_cases hl : laterThan h.due e.due = true
    · refine ⟨[], h :: rest, rfl, by simp [insertTrigger, hl], by simp, ?_⟩
      intro x hx
      cases hx
      exact hl
    · obtain ⟨b, a, h1, h2, h3, h4⟩ := ih
      refine ⟨h :: b, a, by simp [h1], by simp [insertTrigger, hl, h2], ?_, h4⟩
      intro x hx
      rcases List.mem_cons.mp hx with rfl | hx
      · simpa using hl
      · exact h3 x hx

@[simp] theorem insertTrigger_length (e : TriggerEntry) (q : List TriggerEntry) :
    (insertTrigger e q).length = q.length + 1 := by
  obtain ⟨b, a, h1, h2, -, -⟩ := insertTrigger_split e q
  rw [h2, h1]; simp; omega

theorem mem_insertTrigger {e x : TriggerEntry} {q : List TriggerEntry} : x ∈ insertTrigger e q ↔ x = e ∨ x ∈ q := by
  obtain ⟨b, a, h1, h2, -, -⟩ := insertTrigger_split e q
  rw [h2, h1]; simp only [List.mem_append, List.mem_cons]; tauto

/-- Everything the admission of a cue can do (R113). -/
theorem State.admitCue_cases (s : State) (cue offset : Fin 4096) :
    (16 ≤ s.triggers.length ∧ s.admitCue cue offset = (s, [.missedCue cue none]))
      ∨ (s.triggers.length < 16 ∧ s.admitCue cue offset = (s.enterTrigger offset (.cue cue), [])) := by
  unfold State.admitCue State.triggersFull
  by_cases h : 16 ≤ s.triggers.length
  · simp [h]
  · simp [h, Nat.lt_of_not_le h]

/-- Everything the forwarding of an end cue can do (R119). -/
theorem State.placeCueOut_cases (s : State) (c : EndCue) :
    (4 ≤ s.cueOut.length ∧ s.placeCueOut c = (s, [.cueOutDropped c.cue]))
      ∨ (s.cueOut.length < 4 ∧ s.placeCueOut c
          = ({ s with cueOut := s.cueOut ++ [{ cue := c.cue, due := dueFrame s.frameCount c.offset }] }, [])) := by
  unfold State.placeCueOut
  by_cases h : 4 ≤ s.cueOut.length
  · simp [h]
  · simp [h, Nat.lt_of_not_le h]

/-- Admissions change the Trigger Queue alone. -/
theorem offerCues_frame (awaited : Nat → Fin 4096 → Bool) (cues : List (Fin 4096 × Fin 4096)) (j : Nat) (s : State) :
    (offerCues awaited j cues s).1 = { s with triggers := (offerCues awaited j cues s).1.triggers } := by
  induction cues generalizing j s with
  | nil => rfl
  | cons c cues ih =>
    obtain ⟨cue, offset⟩ := c
    simp only [offerCues]
    rw [ih]
    unfold offerCue
    split
    · rcases s.admitCue_cases cue offset with ⟨-, h⟩ | ⟨-, h⟩
      · rw [h]
      · rw [h]; rfl
    · rfl

/-- Forwarding changes the Cue Out list alone. -/
theorem placeCues_frame (cues : List EndCue) (s : State) :
    (placeCues cues s).1 = { s with cueOut := (placeCues cues s).1.cueOut } := by
  induction cues generalizing s with
  | nil => rfl
  | cons c cues ih =>
    simp only [placeCues]
    rw [ih]
    split
    · rcases s.placeCueOut_cases c with ⟨-, h⟩ | ⟨-, h⟩ <;> rw [h]
    · rfl

/-- The Trigger Unit's part of an arrival changes the Trigger Queue and the Cue Out list alone. -/
theorem admitAll_frame (awaited : Nat → Fin 4096 → Bool) (endCues : List EndCue) (cueWord : List (Fin 4096 × Fin 4096))
    (s : State) : (admitAll awaited endCues cueWord s).1 = { s with
      triggers := (admitAll awaited endCues cueWord s).1.triggers
      cueOut := (admitAll awaited endCues cueWord s).1.cueOut } := by
  simp only [admitAll]
  rw [placeCues_frame, offerCues_frame]

/-- With nothing to admit and nothing to forward the Trigger Unit does nothing. -/
@[simp] theorem admitAll_nil (awaited : Nat → Fin 4096 → Bool) (s : State) : admitAll awaited [] [] s = (s, []) := rfl

/-- Whatever every entered cue keeps, the admissions of an arrival keep. -/
theorem offerCues_induction {P : State → Prop}
    (h : ∀ s cue offset, s.triggers.length < 16 → P s → P (s.enterTrigger offset (.cue cue)))
    (awaited : Nat → Fin 4096 → Bool) (cues : List (Fin 4096 × Fin 4096)) :
    ∀ j s, P s → P (offerCues awaited j cues s).1 := by
  induction cues with
  | nil => exact fun _ _ hs => hs
  | cons c cues ih =>
    obtain ⟨cue, offset⟩ := c
    intro j s hs
    simp only [offerCues]
    refine ih _ _ ?_
    unfold offerCue
    split
    · rcases s.admitCue_cases cue offset with ⟨-, h'⟩ | ⟨hl, h'⟩ <;> rw [h']
      · exact hs
      · exact h s cue offset hl hs
    · exact hs

/-- Forwarding keeps the Cue Out list within 4 entries (R119). -/
theorem placeCues_bound {s : State} (h : s.cueOut.length ≤ 4) (cues : List EndCue) :
    (placeCues cues s).1.cueOut.length ≤ 4 := by
  induction cues generalizing s with
  | nil => exact h
  | cons c cues ih =>
    simp only [placeCues]
    refine ih ?_
    split
    · rcases s.placeCueOut_cases c with ⟨-, h'⟩ | ⟨hl, h'⟩ <;> rw [h']
      · exact h
      · simpa using hl
    · exact h

/-! Frame counts (R104, R105) -/

/-- A frame count is later than another when it is 1 to 2^31 − 1 frames after it. -/
theorem laterThan_iff (x y : FrameCount) : laterThan x y = true ↔ 1 ≤ (x - y).toNat ∧ (x - y).toNat < 2147483648 := by
  have hz : x = y ↔ (x - y).toNat = 0 := by
    constructor
    · rintro rfl; simp
    · intro h
      have : x - y = 0 := by simpa [← BitVec.toNat_inj] using h
      bv_omega
  simp only [laterThan, notEarlier, Bool.and_eq_true, decide_eq_true_eq, bne_iff_ne, ne_eq, hz]
  omega

theorem notEarlier_iff (x y : FrameCount) : notEarlier x y = true ↔ (x - y).toNat < 2147483648 := by
  simp [notEarlier]

end Sys2Proof.Machine
end

