-- ==== Sys2Proof/Laws/Lanes.lean ====
section
/-! SUPPORT. The laws of the lanes: what a load, an end, an order or a trigger can do to a lane, and that a lane's work
reaches nothing but the lanes, the Slot Table and the Clip Directory. -/

namespace Sys2Proof.Machine

/-! What the lanes' work leaves alone -/

/-- `w'` comes from `w` by lane work: only lanes, slots and clips of the state differ, reports and end cues only grow. -/
def LaneWork.Follows (w w' : LaneWork) : Prop :=
  w'.st = { w.st with lanes := w'.st.lanes, slots := w'.st.slots, clips := w'.st.clips }
    ∧ (∃ more, w'.reports = w.reports ++ more) ∧ ∃ more, w'.endCues = w.endCues ++ more

theorem LaneWork.Follows.refl (w : LaneWork) : w.Follows w := ⟨rfl, ⟨[], by simp⟩, ⟨[], by simp⟩⟩

theorem LaneWork.Follows.trans {w w' w'' : LaneWork} (h : w.Follows w') (h' : w'.Follows w'') : w.Follows w'' := by
  obtain ⟨a, ⟨m, b⟩, ⟨n, c⟩⟩ := h
  obtain ⟨a', ⟨m', b'⟩, ⟨n', c'⟩⟩ := h'
  refine ⟨?_, ⟨m ++ m', by simp [b', b]⟩, ⟨n ++ n', by simp [c', c]⟩⟩
  rw [a', a]

theorem LaneWork.follows_setLane (w : LaneWork) (i : Fin 8) (l : Lane) : w.Follows (w.setLane i l) :=
  ⟨rfl, ⟨[], by simp [LaneWork.setLane]⟩, ⟨[], by simp [LaneWork.setLane]⟩⟩

theorem LaneWork.follows_report (w : LaneWork) (es : List Event) : w.Follows (w.report es) :=
  ⟨rfl, ⟨es, rfl⟩, ⟨[], by simp [LaneWork.report]⟩⟩

theorem addUses_frame (vs : List Voice) (s : State) : vs.foldl (fun s v => s.addUse v.clip.val) s
    = { s with clips := (vs.foldl (fun s v => s.addUse v.clip.val) s).clips } := by
  induction vs generalizing s with
  | nil => rfl
  | cons v vs ih => rw [List.foldl_cons, ih]; rfl

theorem releaseUses_frame (vs : List Voice) (s : State) : vs.foldl (fun s v => s.releaseUse v.clip.val) s
    = { s with clips := (vs.foldl (fun s v => s.releaseUse v.clip.val) s).clips } := by
  induction vs generalizing s with
  | nil => rfl
  | cons v vs ih => rw [List.foldl_cons, ih]; rfl

@[simp] theorem addUses_lane (vs : List Voice) (s : State) (j : Fin 8) :
    (vs.foldl (fun s v => s.addUse v.clip.val) s).lane j = s.lane j := by rw [addUses_frame]; rfl

@[simp] theorem addUses_slots (vs : List Voice) (s : State) :
    (vs.foldl (fun s v => s.addUse v.clip.val) s).slots = s.slots := by rw [addUses_frame]

@[simp] theorem releaseUses_lane (vs : List Voice) (s : State) (j : Fin 8) :
    (vs.foldl (fun s v => s.releaseUse v.clip.val) s).lane j = s.lane j := by rw [releaseUses_frame]; rfl

@[simp] theorem releaseUses_slots (vs : List Voice) (s : State) :
    (vs.foldl (fun s v => s.releaseUse v.clip.val) s).slots = s.slots := by rw [releaseUses_frame]

@[simp] theorem State.setSlots_lane (s : State) (js : List (Fin 16)) (owner : Option (Fin 8)) (j : Fin 8) :
    (s.setSlots js owner).lane j = s.lane j := rfl

theorem releaseClaims_frame (i : Fin 8) (r : Record) (s : State) : releaseClaims i r s
    = { s with lanes := (releaseClaims i r s).lanes, slots := (releaseClaims i r s).slots
               clips := (releaseClaims i r s).clips } := by
  simp only [releaseClaims]
  rw [releaseUses_frame]
  rfl

theorem LaneWork.follows_commitLoad (i : Fin 8) (index : Fin 256) (r : Record) (w : LaneWork) :
    w.Follows (commitLoad i index r w) := by
  refine LaneWork.Follows.trans (w' := { w with
    st := (r.voices.foldl (fun s v => s.addUse v.clip.val) (w.st.setSlots r.slotSet (some i))).setLane i
      (Lane.loaded index r (effectiveLength w.st r)) }) ⟨?_, ⟨[], by simp⟩, ⟨[], by simp⟩⟩ (LaneWork.follows_report _ _)
  simp only
  rw [addUses_frame]
  rfl

/-- Everything a load can do (R25 to R27): commit, or end the chain and leave the lane IDLE. -/
theorem loadRecord_cases (i : Fin 8) (index : Fin 256) (w : LaneWork) :
    (∃ r, loadTest w.st i index = .ok r ∧ loadRecord i index w = commitLoad i index r w)
      ∨ ∃ reason, loadTest w.st i index = .error reason
        ∧ loadRecord i index w = (w.setLane i Lane.idle).report [.chainEnded i index reason] := by
  unfold loadRecord
  cases h : loadTest w.st i index with
  | ok r => exact .inl ⟨r, rfl, rfl⟩
  | error reason => exact .inr ⟨reason, rfl, rfl⟩

/-- What a load that passes its tests has found (R25). -/
theorem loadTest_ok {s : State} {i : Fin 8} {index : Fin 256} {r : Record} (h : loadTest s i index = .ok r) :
    s.record index.val = some r ∧ (∀ v ∈ r.voices, (s.clip v.clip.val).state = .ready) ∧ 1 ≤ effectiveLength s r
      ∧ ∀ v ∈ r.voices, s.slots[v.slot] = none ∨ s.slots[v.slot] = some i := by
  unfold loadTest at h
  split at h
  · cases h
  · rename_i r' hr
    split at h
    · cases h
    · rename_i hc
      split at h
      · cases h
      · rename_i he
        split at h
        · cases h
        · rename_i hs
          cases h
          refine ⟨hr, ?_, by omega, ?_⟩
          · simpa using hc
          · intro v hv
            simp only [List.any_eq_true, not_exists, not_and, Bool.and_eq_true, bne_iff_ne, ne_eq] at hs
            have := hs v hv
            tauto

theorem LaneWork.follows_loadRecord (i : Fin 8) (index : Fin 256) (w : LaneWork) : w.Follows (loadRecord i index w) := by
  rcases loadRecord_cases i index w with ⟨r, -, h⟩ | ⟨reason, -, h⟩ <;> rw [h]
  · exact LaneWork.follows_commitLoad i index r w
  · exact (LaneWork.follows_setLane ..).trans (LaneWork.follows_report ..)

theorem LaneWork.follows_ended (w : LaneWork) (i : Fin 8) (r : Record) (es : List Event) (cs : List EndCue) :
    w.Follows { st := releaseClaims i r w.st, reports := w.reports ++ es, endCues := w.endCues ++ cs } :=
  ⟨releaseClaims_frame i r w.st, ⟨es, rfl⟩, ⟨cs, rfl⟩⟩

/-- Everything the end of a record can do (R29): nothing on a lane without a copy; otherwise give the claims back, report and
hand on the end cue, and then load what follows or leave the lane IDLE. -/
theorem endRecord_cases (i : Fin 8) (w : LaneWork) :
    ((w.st.lane i).copy = none ∧ endRecord i w = w)
      ∨ ∃ r, (w.st.lane i).copy = some r ∧
        let ended : LaneWork :=
          { st := releaseClaims i r w.st
            reports := w.reports ++ endReport i (w.st.lane i) r (w.st.lane i).mark.reason
            endCues := w.endCues ++ handedEndCue (w.st.lane i) r }
        (∃ index, ((w.st.lane i).pending.map PendingTrigger.record = some index
            ∨ (w.st.lane i).pending = none ∧ (w.st.lane i).mark = .unmarked ∧ r.next = some index)
          ∧ endRecord i w = loadRecord i index ended)
        ∨ ((w.st.lane i).pending = none ∧ ((w.st.lane i).mark ≠ .unmarked ∨ r.next = none)
          ∧ endRecord i w = ended.setLane i Lane.idle) := by
  simp only [endRecord]
  cases hc : (w.st.lane i).copy with
  | none => exact .inl ⟨rfl, rfl⟩
  | some r =>
    refine .inr ⟨r, rfl, ?_⟩
    cases hp : (w.st.lane i).pending with
    | some p => exact .inl ⟨p.record, .inl rfl, rfl⟩
    | none =>
      cases hm : (w.st.lane i).mark with
      | released => exact .inr ⟨rfl, .inl nofun, rfl⟩
      | cut => exact .inr ⟨rfl, .inl nofun, rfl⟩
      | unmarked =>
        cases hn : r.next with
        | none => exact .inr ⟨rfl, .inr rfl, by simp only [hn]⟩
        | some index => exact .inl ⟨index, .inr ⟨rfl, rfl, rfl⟩, by simp only [hn]⟩

theorem LaneWork.follows_endRecord (i : Fin 8) (w : LaneWork) : w.Follows (endRecord i w) := by
  rcases endRecord_cases i w with ⟨-, h⟩ | ⟨r, -, ⟨index, -, h⟩ | ⟨-, -, h⟩⟩ <;> rw [h]
  · exact LaneWork.Follows.refl w
  · exact (LaneWork.follows_ended ..).trans (LaneWork.follows_loadRecord ..)
  · exact (LaneWork.follows_ended ..).trans (LaneWork.follows_setLane ..)

theorem LaneWork.follows_applyReleaseOrder (i : Fin 8) (w : LaneWork) : w.Follows (applyReleaseOrder i w) := by
  simp only [applyReleaseOrder]
  cases (w.st.lane i).copy with
  | none => exact LaneWork.Follows.refl w
  | some r => exact (LaneWork.follows_setLane ..).trans (LaneWork.follows_report ..)

theorem LaneWork.follows_applyAbortOrder (i : Fin 8) (w : LaneWork) : w.Follows (applyAbortOrder i w) := by
  simp only [applyAbortOrder]
  cases (w.st.lane i).copy with
  | none => exact LaneWork.Follows.refl w
  | some r =>
    refine LaneWork.Follows.trans (w' := { w with st := (releaseClaims i r w.st).setLane i Lane.idle })
      ⟨?_, ⟨[], by simp⟩, ⟨[], by simp⟩⟩ (LaneWork.follows_report ..)
    simp only
    rw [releaseClaims_frame]
    rfl

theorem LaneWork.follows_advanceLane (i : Fin 8) (w : LaneWork) : w.Follows (advanceLane i w) := by
  simp only [advanceLane]
  split
  · exact LaneWork.follows_setLane ..
  · exact LaneWork.Follows.refl w

theorem LaneWork.follows_applyWaiting (i : Fin 8) (w : LaneWork) : w.Follows (applyWaiting i w) := by
  simp only [applyWaiting]
  split
  · exact LaneWork.Follows.refl w
  · exact LaneWork.follows_applyReleaseOrder i w
  · exact LaneWork.follows_applyAbortOrder i w

theorem LaneWork.follows_endIfDue (i : Fin 8) (w : LaneWork) : w.Follows (endIfDue i w) := by
  simp only [endIfDue]
  split
  · exact LaneWork.follows_endRecord i w
  · exact LaneWork.Follows.refl w

theorem LaneWork.follows_applyTrigger (i : Fin 8) (w : LaneWork) (t : LaneTrigger) : w.Follows (applyTrigger i w t) := by
  unfold applyTrigger
  split
  · split
    · simp only [queueTrigger]
      split
      · exact LaneWork.follows_setLane ..
      · exact LaneWork.follows_report ..
    · simp only [cutTrigger]
      split
      · exact LaneWork.Follows.refl w
      · split
        · split
          · exact ((LaneWork.follows_report ..).trans (LaneWork.follows_setLane ..)).trans (LaneWork.follows_endRecord ..)
          · exact (LaneWork.follows_report ..).trans (LaneWork.follows_setLane ..)
        · exact (LaneWork.follows_report ..).trans (LaneWork.follows_setLane ..)
    · exact LaneWork.Follows.refl w
  · exact LaneWork.follows_loadRecord ..

theorem LaneWork.follows_applyTriggers (ts : List LaneTrigger) (i : Fin 8) (w : LaneWork) :
    w.Follows (applyTriggers ts i w) := by
  unfold applyTriggers
  generalize ts.filter (fun t => t.lane == i) = us
  induction us generalizing w with
  | nil => exact LaneWork.Follows.refl w
  | cons t us ih => exact (LaneWork.follows_applyTrigger i w t).trans (ih _)

/-- A lane's frame work reaches nothing but the lanes, the Slot Table and the Clip Directory. -/
theorem LaneWork.follows_laneSteps (ts : List LaneTrigger) (i : Fin 8) (w : LaneWork) : w.Follows (laneSteps ts i w) :=
  (((LaneWork.follows_advanceLane i w).trans (LaneWork.follows_applyWaiting i _)).trans
    (LaneWork.follows_endIfDue i _)).trans (LaneWork.follows_applyTriggers ts i _)

theorem LaneWork.follows_abandonLane (reason : EndReason) (w : LaneWork) (i : Fin 8) :
    w.Follows (abandonLane reason w i) := by
  simp only [abandonLane]
  cases (w.st.lane i).copy with
  | none => exact LaneWork.Follows.refl w
  | some r =>
    refine LaneWork.Follows.trans (w' := { w with st := (releaseClaims i r w.st).setLane i Lane.idle })
      ⟨?_, ⟨[], by simp⟩, ⟨[], by simp⟩⟩ (LaneWork.follows_report ..)
    simp only
    rw [releaseClaims_frame]
    rfl

theorem LaneWork.follows_abandonLanes (reason : EndReason) (s : State) :
    (LaneWork.start s).Follows (abandonLanes reason s) := by
  unfold abandonLanes
  generalize List.finRange 8 = is
  generalize LaneWork.start s = w
  induction is generalizing w with
  | nil => exact LaneWork.Follows.refl w
  | cons i is ih => exact (LaneWork.follows_abandonLane reason w i).trans (ih _)

/-! Claims -/

@[simp] theorem Record.mem_slotSet (r : Record) (j : Fin 16) : j ∈ r.slotSet ↔ ∃ v ∈ r.voices, v.slot = j := by
  simp [Record.slotSet]

theorem Record.slotSet_pairwise (r : Record) : r.slotSet.Pairwise (· < ·) :=
  List.Pairwise.filter _ (List.pairwise_lt_finRange 16)

/-- The claims a lane gives up: its context but for the owned slots stands, its slots become unowned, and every clip counts
one use less for each voice. -/
theorem releaseClaims_spec {s : State} (h : sparseSorted s.clips = true) (i : Fin 8) (r : Record) :
    sparseSorted (releaseClaims i r s).clips = true
      ∧ (∀ j, (releaseClaims i r s).lane j = if j = i then { s.lane i with slots := [] } else s.lane j)
      ∧ (∀ j : Fin 16, (releaseClaims i r s).slots[j] = if j ∈ (s.lane i).slots then none else s.slots[j])
      ∧ ∀ c, (releaseClaims i r s).clip c
          = { s.clip c with uses := (s.clip c).uses - r.voices.countP fun v => v.clip.val == c } := by
  obtain ⟨h1, -, h3⟩ := releaseUses (s := s.setSlots (s.lane i).slots none) h r.voices
  refine ⟨h1, fun j => ?_, fun j => ?_, h3⟩
  · simp only [releaseClaims, State.lane_setLane, releaseUses_lane, State.setSlots_lane]
  · simp only [releaseClaims, State.setLane_slots, releaseUses_slots, State.slots_setSlots]

/-- The claims a load makes (R26). -/
theorem commitLoad_spec {w : LaneWork} (h : sparseSorted w.st.clips = true) (i : Fin 8) (index : Fin 256) (r : Record) :
    sparseSorted (commitLoad i index r w).st.clips = true
      ∧ (∀ j, (commitLoad i index r w).st.lane j
          = if j = i then Lane.loaded index r (effectiveLength w.st r) else w.st.lane j)
      ∧ (∀ j : Fin 16, (commitLoad i index r w).st.slots[j] = if j ∈ r.slotSet then some i else w.st.slots[j])
      ∧ (∀ c, (commitLoad i index r w).st.clip c
          = { w.st.clip c with uses := (w.st.clip c).uses + r.voices.countP fun v => v.clip.val == c })
      ∧ (commitLoad i index r w).reports = w.reports ++ (if r.reportStart then [.spliceStarted i index r.tag] else [])
      ∧ (commitLoad i index r w).endCues = w.endCues := by
  obtain ⟨h1, -, h3⟩ := addUses (s := w.st.setSlots r.slotSet (some i)) h r.voices
  refine ⟨h1, fun j => ?_, fun j => ?_, h3, rfl, rfl⟩
  · simp only [commitLoad, LaneWork.report, State.lane_setLane, addUses_lane, State.setSlots_lane]
  · simp only [commitLoad, LaneWork.report, State.setLane_slots, addUses_slots, State.slots_setSlots]

/-! Fades (R53 to R57) -/

theorem fadeIndex_le (r : Record) (total k : Nat) : fadeIndex r total k ≤ 63 := by
  unfold fadeIndex upEnvelope
  split <;> omega

theorem phaseAt_ne_idle (r : Record) (total k : Nat) : phaseAt r total k ≠ .idle := by
  unfold phaseAt
  repeat' split
  all_goals nofun

/-- The recompute of a splice that has frames to run gives no total below the present k, and none above the old one. -/
theorem recomputedTotal_bounds (r : Record) {total c : Nat} (h : c < total) :
    c ≤ recomputedTotal r total c ∧ recomputedTotal r total c ≤ total := by
  unfold recomputedTotal
  split
  · omega
  · split <;> omega

theorem recomputedTotal_eq_self_iff (r : Record) {total c : Nat} (h : c < total) :
    recomputedTotal r total c = c ↔ r.voices = [] ∨ r.rOut.val = 0 := by
  unfold recomputedTotal Record.isPause
  cases r.voices with
  | nil => simp
  | cons v vs => by_cases hr : r.rOut.val = 0 <;> simp [hr]; omega

end Sys2Proof.Machine
end

