-- ==== Sys2Proof/Laws/Capture.lean ====
section
/-! SUPPORT. The laws of the capture units: what each of their operations leaves alone, and what the Clip Directory and the
units hold after it. -/

namespace Sys2Proof.Machine

/-- `t` comes from `s` by capture work: only the units and the Clip Store differ. -/
def State.CaptureFollows (s t : State) : Prop :=
  t = { s with units := t.units, clips := t.clips, memory := t.memory, freeBlocks := t.freeBlocks }

theorem State.CaptureFollows.refl (s : State) : s.CaptureFollows s := rfl

theorem State.CaptureFollows.trans {s t u : State} (h : s.CaptureFollows t) (h' : t.CaptureFollows u) :
    s.CaptureFollows u := by
  unfold State.CaptureFollows at h h' ⊢
  rw [h', h]

theorem State.captureFollows_setUnit (s : State) (u : Fin 2) (v : CaptureUnit) : s.CaptureFollows (s.setUnit u v) := rfl

theorem State.captureFollows_setClip (s : State) (c : Nat) (v : Clip) : s.CaptureFollows (s.setClip c v) := rfl

theorem State.captureFollows_freeClip (s : State) (c : Nat) : s.CaptureFollows (s.freeClip c) := rfl

theorem State.captureFollows_writeClip {s t : State} {c : Nat} {x : Sample} (h : s.writeClip c x = some t) :
    s.CaptureFollows t := by
  have := State.writeClip_frame h
  unfold State.CaptureFollows
  rw [this]

theorem State.captureFollows_startUnit (s : State) (u : Fin 2) : s.CaptureFollows (startUnit u s).1 := rfl

theorem State.captureFollows_completeCapture (s : State) (u : Fin 2) : s.CaptureFollows (completeCapture u s).1 := rfl

theorem State.captureFollows_endCaptureShort (s : State) (reason : DoneReason) (u : Fin 2) :
    s.CaptureFollows (endCaptureShort reason u s).1 := by
  simp only [endCaptureShort]
  split <;> rfl

theorem State.captureFollows_writeUnit (s : State) (programme : SampleSet) (u : Fin 2) :
    s.CaptureFollows (writeUnit programme u s).1 := by
  simp only [writeUnit]
  split
  · exact s.captureFollows_endCaptureShort _ u
  · rename_i t h
    split
    · exact ((State.captureFollows_writeClip h).trans (t.captureFollows_setUnit _ _)).trans
        (State.captureFollows_completeCapture _ u)
    · exact (State.captureFollows_writeClip h).trans (t.captureFollows_setUnit _ _)

theorem State.captureFollows_unitWork (s : State) (programme : SampleSet) (delivered : Bool) (u : Fin 2) :
    s.CaptureFollows (unitWork programme delivered u s).1 := by
  cases delivered
  · simp only [unitWork, Bool.false_eq_true, if_false]
    split
    · exact s.captureFollows_writeUnit programme u
    · exact State.CaptureFollows.refl s
  · simp only [unitWork, if_true]
    split
    · exact (s.captureFollows_startUnit u).trans (State.captureFollows_writeUnit _ programme u)
    · exact s.captureFollows_startUnit u

theorem State.captureFollows_cancelUnit (s : State) (reason : CancelReason) (u : Fin 2) :
    s.CaptureFollows (cancelUnit reason u s).1 := by
  simp only [cancelUnit]
  split <;> rfl

theorem State.captureFollows_loseUnit (s : State) (u : Fin 2) : s.CaptureFollows (loseUnit u s).1 := by
  simp only [loseUnit]
  split
  · exact State.CaptureFollows.refl s
  · exact s.captureFollows_cancelUnit _ u
  · exact s.captureFollows_endCaptureShort _ u

theorem State.captureFollows_eachUnit {f : Fin 2 → State → State × List Event}
    (h : ∀ u s, State.CaptureFollows s (f u s).1) (s : State) : s.CaptureFollows (eachUnit f s).1 := by
  simp only [eachUnit]
  exact (h 0 s).trans (h 1 _)

/-- An ARMED unit's start: the unit RECORDING with no awaited cue, its clip FILLING, nothing else of either (R92). -/
theorem startUnit_spec {s : State} (h : sparseSorted s.clips = true) (u : Fin 2) :
    (∀ v, (startUnit u s).1.unit v = if v = u then { s.unit u with state := .recording, cue := none } else s.unit v)
      ∧ ∀ c, (startUnit u s).1.clip c
          = if c = (s.unit u).clipNumber then { s.clip c with state := .filling } else s.clip c := by
  refine ⟨fun v => ?_, fun c => ?_⟩
  · simp only [startUnit, State.unit_congr (State.setClip_units ..), State.unit_setUnit]
  · have hu : ∀ v c, (s.setUnit u v).clip c = s.clip c := fun v c => rfl
    simp only [startUnit]
    rw [State.clip_setClip (by exact h), hu]
    split
    · rename_i hc; rw [hc]
    · rfl

/-- A cancelled unit: IDLE, its clip FREE (R97). -/
theorem cancelUnit_spec {s : State} (h : sparseSorted s.clips = true) (reason : CancelReason) {u : Fin 2}
    (hu : (s.unit u).state ≠ .idle) :
    (∀ v, (cancelUnit reason u s).1.unit v = if v = u then CaptureUnit.idle else s.unit v)
      ∧ (∀ c, (cancelUnit reason u s).1.clip c = if c = (s.unit u).clipNumber then Clip.freed else s.clip c)
      ∧ (cancelUnit reason u s).2 = [.captureCancelled u (s.unit u).clipNumber reason] := by
  simp only [cancelUnit, if_neg hu]
  refine ⟨fun v => ?_, fun c => ?_, trivial⟩
  · simp only [State.unit_setUnit, State.unit_congr (State.freeClip_units ..)]
  · exact State.clip_freeClip h _ c

/-! The capture units within an arrival -/

theorem unitAt_follows (p : ArrivalPlan) (s0 : State) (turn : Fin 10) (u : Fin 2) (w : ArrivalWork) :
    w.lanes.st.CaptureFollows (unitAt p s0 turn u w).lanes.st
      ∧ (unitAt p s0 turn u w).lanes.reports = w.lanes.reports
      ∧ (unitAt p s0 turn u w).lanes.endCues = w.lanes.endCues := by
  simp only [unitAt]
  split
  · exact ⟨State.captureFollows_unitWork .., rfl, rfl⟩
  · exact ⟨State.CaptureFollows.refl _, rfl, rfl⟩

theorem unitsAt_follows (p : ArrivalPlan) (s0 : State) (turn : Fin 10) (w : ArrivalWork) :
    w.lanes.st.CaptureFollows (unitsAt p s0 turn w).lanes.st
      ∧ (unitsAt p s0 turn w).lanes.reports = w.lanes.reports
      ∧ (unitsAt p s0 turn w).lanes.endCues = w.lanes.endCues := by
  have h0 := unitAt_follows p s0 turn 0 w
  have h1 := unitAt_follows p s0 turn 1 (unitAt p s0 turn 0 w)
  exact ⟨h0.1.trans h1.1, h1.2.1.trans h0.2.1, h1.2.2.trans h0.2.2⟩

/-- `t` comes from `s` by the work of lanes, store and capture units: only what those blocks hold differs. -/
def State.WorkFollows (s t : State) : Prop :=
  t = { s with lanes := t.lanes, slots := t.slots, units := t.units, clips := t.clips, memory := t.memory
               freeBlocks := t.freeBlocks }

theorem State.WorkFollows.trans {s t u : State} (h : s.WorkFollows t) (h' : t.WorkFollows u) : s.WorkFollows u := by
  unfold State.WorkFollows at h h' ⊢
  rw [h', h]

theorem State.CaptureFollows.work {s t : State} (h : s.CaptureFollows t) : s.WorkFollows t := by
  unfold State.CaptureFollows at h
  unfold State.WorkFollows
  rw [h]

theorem LaneWork.Follows.work {w w' : LaneWork} (h : w.Follows w') : w.st.WorkFollows w'.st := by
  unfold State.WorkFollows
  rw [h.1]

theorem laneAt_follows (p : ArrivalPlan) (s0 : State) (w : ArrivalWork) (i : Fin 8) :
    w.lanes.st.WorkFollows (laneAt p s0 w i).lanes.st := by
  simp only [laneAt]
  exact (unitsAt_follows ..).1.work.trans (LaneWork.follows_laneSteps ..).work

theorem lanesWork_follows (p : ArrivalPlan) (s : State) : s.WorkFollows (lanesWork p s).lanes.st := by
  have hf : ∀ (is : List (Fin 8)) (w : ArrivalWork), w.lanes.st.WorkFollows (is.foldl (laneAt p s) w).lanes.st := by
    intro is
    induction is with
    | nil => exact fun _ => rfl
    | cons i is ih => exact fun w => (laneAt_follows p s w i).trans (ih _)
  simp only [lanesWork]
  exact (hf _ { lanes := LaneWork.start s, unitEvents := Vector.replicate 2 [] }).trans (unitsAt_follows ..).1.work

theorem returnsWork_follows (p : ArrivalPlan) (s : State) : s.WorkFollows (returnsWork p s).1.lanes.st := by
  simp only [returnsWork]
  refine (lanesWork_follows p s).trans (State.WorkFollows.trans ?_ (unitsAt_follows ..).1.work)
  have := State.freeDoomed_frame (lanesWork p s).lanes.st
  unfold State.WorkFollows
  rw [this]

/-! The whole frame work -/

theorem handleOrderWord_frame (w : Option ControlWord) (s : State) :
    (handleOrderWord w s).st = { s with assembly := (handleOrderWord w s).st.assembly } := by
  cases w with
  | none => rfl
  | some w =>
    simp only [handleOrderWord]
    split
    · simp only [orderHead]; split <;> rfl
    · unfold orderBody; repeat' split
      all_goals rfl
    · unfold orderEnd; repeat' split
      all_goals rfl
    · rfl

theorem orderUnitWork_frame (w : Option ControlWord) (s : State) :
    (orderUnitWork w s).st = { s with assembly := (orderUnitWork w s).st.assembly } := by
  have hc : (checkDeadline s).1 = { s with assembly := (checkDeadline s).1.assembly } := by
    unfold checkDeadline
    repeat' split
    all_goals rfl
  simp only [orderUnitWork]
  rw [handleOrderWord_frame, hc]

theorem offerAndDepart_frame (n : Nat) (departs : Bool) (es : List Event) (s : State) :
    offerAndDepart n departs es s = { s with
      reports := (offerAndDepart n departs es s).reports, wordPos := (offerAndDepart n departs es s).wordPos
      lost := (offerAndDepart n departs es s).lost, eventSeq := (offerAndDepart n departs es s).eventSeq } := by
  unfold offerAndDepart
  split
  · split
    · rfl
    · dsimp only
      rw [State.offerEvents_frame (State.dropHeadReport _), State.offerEvents_frame s]
      rfl
  · rw [State.offerEvents_frame s]

/-- The frame work of an arrival leaves the receiver, the station number, the last-taken memory, the Cue Map, the Splice
Table, the fade law and the waiting commands alone. -/
theorem frameWork_frame (programme : SampleSet) (word : Option ControlWord) (s : State) :
    let t := (frameWork programme word s).1
    t = { s with
      assembly := t.assembly, triggers := t.triggers, cueOut := t.cueOut, lanes := t.lanes, slots := t.slots
      memory := t.memory, freeBlocks := t.freeBlocks, clips := t.clips, units := t.units, reports := t.reports
      wordPos := t.wordPos, lost := t.lost, eventSeq := t.eventSeq, lineOut := t.lineOut, choices := t.choices } := by
  simp only [frameWork]
  rw [offerAndDepart_frame, orderUnitWork_frame, admitAll_frame]
  simp only [setPhases]
  rw [returnsWork_follows]
  cases arbitrate s word <;> rfl

end Sys2Proof.Machine
end

