-- ==== Sys2Proof/Laws/Link.lean ====
section
/-! SUPPORT. The laws of the receiver in SEARCH and of the two rows that are an arrival: what one bit and a run of bits can do,
what they leave alone, and when a row is the arrival. -/

namespace Sys2Proof.Machine

/-- Everything one bit can do: nothing outside SEARCH, pass, wait, find a good candidate, or move the search on (R126). -/
theorem searchBit_cases (s : State) (bit : Bool) :
    let line := shiftIn s.lineOut bit
    (s.lock ≠ .search ∧ searchBit s bit = s)
      ∨ (s.lock = .search ∧ s.receiving = false ∧ searchBit s bit = { s with lineOut := line })
      ∨ (s.lock = .search ∧ s.receiving = true ∧ s.waitingBits < 447
          ∧ searchBit s bit = { s with waitingBits := s.waitingBits + 1, lineOut := line })
      ∨ (s.lock = .search ∧ s.receiving = true ∧ 447 ≤ s.waitingBits ∧ (frameOfLine line).good = true
          ∧ searchBit s bit = { s with
              lock := .confirm, confirm := 1, lastGood := (frameOfLine line).samples, nextBit := s.nextBit + 448
              waitingBits := 0, lineOut := line })
      ∨ (s.lock = .search ∧ s.receiving = true ∧ 447 ≤ s.waitingBits ∧ (frameOfLine line).good = false
          ∧ searchBit s bit = { s with nextBit := s.nextBit + 1, lineOut := line }) := by
  by_cases hl : s.lock = .search
  · cases hr : s.receiving
    · exact .inr (.inl ⟨hl, rfl, by simp [searchBit, hl, hr]⟩)
    · by_cases hw : s.waitingBits < 447
      · exact .inr (.inr (.inl ⟨hl, rfl, hw, by simp [searchBit, hl, hr, hw]⟩))
      · cases hg : (frameOfLine (shiftIn s.lineOut bit)).good
        · exact .inr (.inr (.inr (.inr ⟨hl, rfl, Nat.le_of_not_lt hw, hg, by simp [searchBit, hl, hr, hw, hg]⟩)))
        · exact .inr (.inr (.inr (.inl ⟨hl, rfl, Nat.le_of_not_lt hw, hg, by simp [searchBit, hl, hr, hw, hg]⟩)))
  · exact .inl ⟨hl, by simp [searchBit, hl]⟩

/-- One bit touches the receiver and the line alone, and fewer than 448 bits ever wait to be searched. -/
theorem searchBit_frame (s : State) (bit : Bool) :
    let t := searchBit s bit
    t = { s with
      lock := t.lock, confirm := t.confirm, lastGood := t.lastGood, nextBit := t.nextBit, waitingBits := t.waitingBits
      lineOut := t.lineOut } ∧ (s.waitingBits ≤ 447 → t.waitingBits ≤ 447) := by
  intro t
  obtain ⟨-, h⟩ | h := searchBit_cases s bit
  · exact ⟨by simp only [t, h], by simp only [t, h, imp_self]⟩
  obtain ⟨-, -, h⟩ | h := h
  · exact ⟨by simp only [t, h], by simp only [t, h, imp_self]⟩
  obtain ⟨-, -, hw, h⟩ | h := h
  · exact ⟨by simp only [t, h], fun _ => by simp only [t, h]; exact hw⟩
  obtain h | h := h
  · obtain ⟨-, -, -, -, h⟩ := h
    exact ⟨by simp only [t, h], fun _ => by simp only [t, h, Nat.zero_le]⟩
  · obtain ⟨-, -, -, -, h⟩ := h
    exact ⟨by simp only [t, h], by simp only [t, h, imp_self]⟩

/-- So do a row of bits. -/
theorem searchBits_frame (bits : List Bool) (s : State) :
    let t := bits.foldl searchBit s
    t = { s with
      lock := t.lock, confirm := t.confirm, lastGood := t.lastGood, nextBit := t.nextBit, waitingBits := t.waitingBits
      lineOut := t.lineOut } := by
  induction bits generalizing s with
  | nil => rfl
  | cons bit bits ih =>
    simp only [List.foldl_cons]
    rw [ih, (searchBit_frame s bit).1]

theorem searchBits_waitingBits (bits : List Bool) {s : State} (h : s.waitingBits ≤ 447) :
    (bits.foldl searchBit s).waitingBits ≤ 447 := by
  induction bits generalizing s with
  | nil => exact h
  | cons bit bits ih => exact ih ((searchBit_frame s bit).2 h)

/-- Outside SEARCH no bit is taken. -/
theorem searchBits_of_lock_ne (bits : List Bool) {s : State} (h : s.lock ≠ .search) : bits.foldl searchBit s = s := by
  induction bits with
  | nil => rfl
  | cons bit bits ih => rw [List.foldl_cons, show searchBit s bit = s by simp [searchBit, h], ih]

theorem freeSlotAt_of_locked {s : State} (h : s.lock = .locked) : freeSlotAt s = some (freeSlotChoice s) := by
  rw [freeSlotAt, if_pos h]

theorem freeSlotAt_of_lock_ne {s : State} (h : s.lock ≠ .locked) : freeSlotAt s = none := by
  rw [freeSlotAt, if_neg h]

/-- CUE_OUT_SENT is the arrival of a frame in whose free slot a Cue Out entry leaves, or nothing (R120). -/
theorem execCueOutSent_cases (s : State) :
    (∃ e, freeSlotAt s = some (.cueOut e) ∧ execCueOutSent s = .next (arriveIdle s))
      ∨ (∀ e, freeSlotAt s ≠ some (.cueOut e)) ∧ execCueOutSent s = .next s := by
  unfold execCueOutSent
  split
  · exact .inl ⟨_, by assumption, rfl⟩
  · exact .inr ⟨by assumption, rfl⟩

/-- REPORT_WORD_SENT is the arrival of a frame in whose free slot a report word leaves, or nothing (R191). -/
theorem execReportWordSent_cases (s : State) :
    (∃ r, freeSlotAt s = some (.report r) ∧ execReportWordSent s = .next (arriveIdle s))
      ∨ (∀ r, freeSlotAt s ≠ some (.report r)) ∧ execReportWordSent s = .next s := by
  unfold execReportWordSent
  split
  · exact .inl ⟨_, by assumption, rfl⟩
  · exact .inr ⟨by assumption, rfl⟩

/-- An arrival while LOCKED is that of a good frame, of a concealed one, or the link loss (R130). -/
theorem arriveLocked_good {line : LineFrame} (s : State) (h : (frameOfLine line).good = true) :
    arriveLocked line s = arriveGood (frameOfLine line).samples (frameOfLine line).control s := by
  simp only [arriveLocked, h, if_true]

end Sys2Proof.Machine
end

