-- ==== Sys2Proof/Laws/Orders.lean ====
section
/-! SUPPORT. The laws of the Order Unit: what taking an order can do, and the fields of orders. -/

namespace Sys2Proof.Machine

/-! Fields (R161) -/

theorem fieldBelow_of_lt {n : Nat} {w : Payload} (h : w.toNat < n) : fieldBelow n w = some ⟨w.toNat, h⟩ := by
  simp [fieldBelow, h]

theorem fieldBelow_of_ge {n : Nat} {w : Payload} (h : n ≤ w.toNat) : fieldBelow n w = none := by
  simp [fieldBelow, Nat.not_lt.mpr h]

/-- A number of a field's range, sent as a payload, is read back. -/
theorem fieldBelow_ofNat {n : Nat} (i : Fin n) (h : n ≤ 16777216) : fieldBelow n (BitVec.ofNat 24 i.val) = some i := by
  have : (BitVec.ofNat 24 i.val).toNat = i.val := by simp; omega
  unfold fieldBelow; simp [this]

theorem policyField_ofNat (p : Policy) : policyField (BitVec.ofNat 24 p.code) = some p := by cases p <;> rfl

theorem flagField_ofNat (b : Bool) : flagField (BitVec.ofNat 24 (flagCode b)) = some b := by cases b <;> rfl

/-! Taking (R152 to R158) -/

theorem whenLocked_of_locked {s : State} (f : State → State) (h : s.lock = .locked) : whenLocked f s = f s := by
  simp [whenLocked, h]

theorem whenLocked_of_not {s : State} (f : State → State) (h : s.lock ≠ .locked) : whenLocked f s = s := by
  simp [whenLocked, h]

/-- Everything the taking of a state-changing order can do: drop it, answer it REPEATED, or execute, record and answer
it. -/
theorem takeChange_cases (code seq : BitVec 8) (f : State → OrderResult) (s : State) :
    (32 ≤ s.reports.length ∧ takeChange code seq f s = s)
      ∨ (s.reports.length < 32 ∧ ∃ status, s.repeatOf code seq = some status
        ∧ takeChange code seq f s = s.queueAck seq [code.toNat, Status.repeated.code, status.code])
      ∨ (s.reports.length < 32 ∧ s.repeatOf code seq = none
        ∧ takeChange code seq f s
          = (({ (f s).st with lastTaken := some { seq := seq, code := code, status := (f s).status } } : State).queueAck seq
              (code.toNat :: (f s).status.code :: (f s).data)).offerEvents (f s).events) := by
  unfold takeChange State.reportsFull
  by_cases h : 32 ≤ s.reports.length
  · simp [h]
  · cases hr : s.repeatOf code seq <;> simp [h, Nat.lt_of_not_le h]

/-- Everything the taking of a READ order can do: drop it, or answer it. -/
theorem takeRead_cases (code seq : BitVec 8) (f : State → OrderResult) (s : State) :
    (32 ≤ s.reports.length ∧ takeRead code seq f s = s)
      ∨ (s.reports.length < 32 ∧ takeRead code seq f s
          = ((f s).st.queueAck seq (code.toNat :: (f s).status.code :: (f s).data)).offerEvents (f s).events) := by
  unfold takeRead State.reportsFull
  by_cases h : 32 ≤ s.reports.length
  · simp [h]
  · simp [h, Nat.lt_of_not_le h]

/-- A state-changing order that a station takes afresh is executed, recorded and answered. -/
theorem takeChange_fresh {s : State} {code seq : BitVec 8} {f : State → OrderResult} (h : s.takesFresh code seq) :
    whenLocked (takeChange code seq f) s
      = (({ (f s).st with lastTaken := some { seq := seq, code := code, status := (f s).status } } : State).queueAck seq
          (code.toNat :: (f s).status.code :: (f s).data)).offerEvents (f s).events := by
  obtain ⟨⟨h1, h2⟩, h3⟩ := h
  have hr : s.repeatOf code seq = none := by
    unfold State.repeatOf
    cases hm : s.lastTaken with
    | none => rfl
    | some m => simpa using h3 m hm
  simp [whenLocked, h1, takeChange, State.reportsFull, Nat.not_le.mpr h2, hr]

/-- A READ order that a station takes is answered. -/
theorem takeRead_taken {s : State} {code seq : BitVec 8} {f : State → OrderResult} (h : s.takesOrders) :
    whenLocked (takeRead code seq f) s
      = ((f s).st.queueAck seq (code.toNat :: (f s).status.code :: (f s).data)).offerEvents (f s).events := by
  simp [whenLocked, h.1, takeRead, State.reportsFull, Nat.not_le.mpr h.2]

/-- A fresh state-changing order whose execution gives `t`, no data and no event report leaves `t` answered. -/
theorem takeChange_answered {s t : State} {code seq : BitVec 8} {f : State → OrderResult} {status : Status}
    (h : s.takesFresh code seq) (hf : f s = { status := status, data := [], st := t, events := [] }) :
    whenLocked (takeChange code seq f) s = t.answered code seq status := by
  rw [takeChange_fresh h, hf]; rfl

/-- A READ order leaves the state as it was, with its acknowledgement. -/
theorem takeRead_told {s : State} {code seq : BitVec 8} {f : State → OrderResult} {status : Status} {data : List Nat}
    (h : s.takesOrders) (hf : f s = { status := status, data := data, st := s, events := [] }) :
    whenLocked (takeRead code seq f) s = s.told code seq status data := by
  rw [takeRead_taken h, hf]; rfl

/-! What the execution of each order leaves alone -/

theorem orderReadStation_st (body : List Payload) (s : State) : (orderReadStation body s).st = s := by
  cases body <;> rfl

theorem orderReadRecord_st (body : List Payload) (s : State) : (orderReadRecord body s).st = s := by
  unfold orderReadRecord; split <;> (try split) <;> (try split) <;> rfl

theorem orderReadCueMap_st (body : List Payload) (s : State) : (orderReadCueMap body s).st = s := by
  unfold orderReadCueMap; split <;> (try split) <;> rfl

theorem orderReadLane_st (body : List Payload) (s : State) : (orderReadLane body s).st = s := by
  unfold orderReadLane; split <;> (try split) <;> rfl

theorem orderReadTriggers_st (body : List Payload) (s : State) : (orderReadTriggers body s).st = s := by
  cases body <;> rfl

theorem orderReadLaw_st (body : List Payload) (s : State) : (orderReadLaw body s).st = s := by cases body <;> rfl

theorem orderReadClip_st (body : List Payload) (s : State) : (clipOrder readClip body s).st = s := by
  unfold clipOrder; split <;> (try split) <;> rfl

/-- LOAD RECORD reaches the Splice Table alone. -/
theorem orderLoadRecord_frame (body : List Payload) (s : State) :
    (orderLoadRecord body s).st = { s with table := (orderLoadRecord body s).st.table } := by
  unfold orderLoadRecord
  repeat' split
  all_goals rfl

theorem orderEraseRecord_frame (body : List Payload) (s : State) :
    (orderEraseRecord body s).st = { s with table := (orderEraseRecord body s).st.table } := by
  unfold orderEraseRecord
  repeat' split
  all_goals rfl

/-- MAP CUE and UNMAP CUE reach the Cue Map alone. -/
theorem orderMapCue_frame (body : List Payload) (s : State) :
    (orderMapCue body s).st = { s with cueMap := (orderMapCue body s).st.cueMap } := by
  unfold orderMapCue
  repeat' split
  all_goals rfl

theorem orderUnmapCue_frame (body : List Payload) (s : State) :
    (orderUnmapCue body s).st = { s with cueMap := (orderUnmapCue body s).st.cueMap } := by
  unfold orderUnmapCue
  repeat' split
  all_goals rfl

/-- TAKE reaches the Trigger Queue alone. -/
theorem orderTake_frame (body : List Payload) (s : State) :
    (orderTake body s).st = { s with triggers := (orderTake body s).st.triggers } := by
  unfold orderTake
  repeat' split
  all_goals rfl

/-- RELEASE and ABORT reach the lanes alone. -/
theorem orderWaiting_frame (order : WaitingOrder) (body : List Payload) (s : State) :
    (orderWaiting order body s).st = { s with lanes := (orderWaiting order body s).st.lanes } := by
  unfold orderWaiting
  repeat' split
  all_goals rfl

/-- LOAD LAW reaches the Fade Law Table alone. -/
theorem orderLoadLaw_frame (body : List Payload) (s : State) :
    (orderLoadLaw body s).st = { s with law := (orderLoadLaw body s).st.law } := by
  unfold orderLoadLaw
  repeat' split
  all_goals rfl

/-- CAPTURE reaches the Clip Directory and the capture units alone. -/
theorem orderCapture_frame (body : List Payload) (s : State) :
    (orderCapture body s).st
      = { s with clips := (orderCapture body s).st.clips, units := (orderCapture body s).st.units } := by
  unfold orderCapture
  repeat' split
  all_goals rfl

end Sys2Proof.Machine
end

