-- ==== Sys2Proof/Tests/States.lean ====
section
/-! SUPPORT. The states of the tests, and a check by evaluation that a concrete state is sound. -/

namespace Sys2Proof.Tests
open Sys2Proof Sys2Proof.Machine
set_option Elab.async false

/-! Soundness of a concrete state by evaluation -/

def recordCheck (r : Record) : Bool :=
  decide (1 ≤ r.length) && decide (r.length < 16777216) && decide (r.start < 16777216) && decide (r.voices.length ≤ 4)
    && decide (r.voices.map Voice.slot).Nodup && (match r.endCue with | none => true | some c => c.cue != 0)

def laneCheck (l : Lane) : Bool :=
  l == Lane.idle || match l.copy with
    | none => false
    | some r => l.phase != .idle && l.source.isSome && decide (1 ≤ l.effLen) && decide (l.k < l.total) && l.slots == r.slotSet

def quietCheck (s : State) : Bool :=
  (List.finRange 8).all (fun i => s.lane i == Lane.idle) && (List.finRange 16).all (fun j => s.slots[j] == none)
    && s.triggers == [] && s.cueOut == [] && (List.finRange 2).all (fun u => s.unit u == CaptureUnit.idle)
    && s.assembly == none

def clipCheck (v : Clip) : Bool :=
  (v.state != .free) && (v.state != .reserved || (v.length == 0 && v.filler != some .management))
    && (v.filler.isSome == (v.state == .reserved || v.state == .filling)) && v.chain.length == blocksFor v.length

def unitCheck (s : State) (u : Fin 2) : Bool :=
  s.unit u == CaptureUnit.idle || match (s.unit u).clip with
    | none => false
    | some c => (s.unit u).slot.isSome && (s.clip c.val).filler == some (.unit u) && (s.clip c.val).length == (s.unit u).written
      && decide ((s.unit u).written < (s.unit u).wanted)
      && (((s.unit u).state == .armed && (s.clip c.val).state == .reserved && (s.unit u).cue.isSome)
        || ((s.unit u).state == .recording && (s.clip c.val).state == .filling && (s.unit u).cue == none))

def usesCheck (s : State) : Bool :=
  (List.range 512).all fun c => (s.clip c).uses == s.voicesOf c
    && ((s.clip c).uses == 0 || (s.clip c).state == .ready || (s.clip c).state == .doomed)
    && ((s.clip c).state != .doomed || (s.clip c).uses != 0)

/-- Everything of soundness but where the blocks stand. -/
def soundCheck (s : State) : Bool :=
  (Memory.wf s.memory && sparseSorted s.table && sparseSorted s.clips && s.table.all (fun p => decide (p.1 < 256))
    && s.clips.all (fun p => decide (p.1 < 512)))
  && (decide (s.reports.length ≤ 32) && decide (s.eventCount ≤ 24) && decide (s.lost ≤ 65535)
    && match s.reports with | [] => s.wordPos == 0 | r :: _ => decide (s.wordPos ≤ r.body.length + 1))
  && decide (s.cueOut.length ≤ 4)
  && (decide (s.triggers.length ≤ 16)
    && decide (s.triggers.Pairwise fun e f => (e.due - s.frameCount).toNat ≤ (f.due - s.frameCount).toNat)
    && s.triggers.all (fun e => decide ((e.due - e.admitted).toNat ≤ 4095
      ∧ (s.frameCount + 1 - e.admitted).toNat ≤ (e.due - e.admitted).toNat + 1)))
  && (decide (s.cueMap.length ≤ 64) && decide (s.cueMap.map CueMapEntry.cue).Nodup && s.cueMap.all (fun e => e.cue != 0))
  && s.law.toList.all (fun g => decide (g ≤ 65536)) && s.table.all (fun p => recordCheck p.2)
  && ((List.finRange 8).all (fun i => laneCheck (s.lane i))
    && (List.finRange 16).all fun j => (List.finRange 8).all fun i => (s.slots[j] == some i) == (s.lane i).slots.contains j)
  && (decide (s.lock = .confirm → 1 ≤ s.confirm ∧ s.confirm ≤ 7) && decide (s.lock ≠ .confirm → s.confirm = 0)
    && decide (s.lock ≠ .locked → s.badRun = 0) && decide (s.badRun ≤ 2)
    && decide (s.waitingBits ≤ 447) && decide (s.lock ≠ .search → s.waitingBits = 0 ∧ s.receiving = true))
  && (s.lock == .locked || quietCheck s)
  && (s.clips.all (fun p => clipCheck p.2) && (List.finRange 2).all (unitCheck s)
    && s.clips.all fun p => (List.finRange 2).all fun u =>
      p.2.filler != some (.unit u) || (s.unit u).clip.map Fin.val == some p.1)
  && usesCheck s

theorem record_sound_of_check {r : Record} (h : recordCheck r = true) : r.sound := by
  simp only [recordCheck, Bool.and_eq_true, decide_eq_true_eq] at h
  obtain ⟨⟨⟨⟨⟨h1, h2⟩, h3⟩, h4⟩, h5⟩, h6⟩ := h
  refine ⟨h1, h2, h3, h4, h5, fun c hc => ?_⟩
  simpa [hc] using h6

theorem lane_sound_of_check {l : Lane} (h : laneCheck l = true) : l.sound := by
  simp only [laneCheck, Bool.or_eq_true, beq_iff_eq] at h
  rcases h with h | h
  · exact .inl h
  · cases hc : l.copy with
    | none => simp [hc] at h
    | some r =>
      simp only [hc, Bool.and_eq_true, bne_iff_ne, ne_eq, decide_eq_true_eq, beq_iff_eq] at h
      obtain ⟨⟨⟨⟨h1, h2⟩, h3⟩, h4⟩, h5⟩ := h
      exact .inr ⟨r, hc, h1, h2, h3, h4, h5⟩

theorem quiet_of_check {s : State} (h : quietCheck s = true) : s.quiet := by
  simp only [quietCheck, Bool.and_eq_true, List.all_eq_true, List.mem_finRange, beq_iff_eq, forall_const] at h
  obtain ⟨⟨⟨⟨⟨h1, h2⟩, h3⟩, h4⟩, h5⟩, h6⟩ := h
  exact ⟨h1, h2, h3, h4, h5, h6⟩

theorem clip_sound_of_check {v : Clip} (h : clipCheck v = true) : v.sound ∧ v ≠ Clip.freed := by
  simp only [clipCheck, Bool.and_eq_true, bne_iff_ne, ne_eq, Bool.or_eq_true, beq_iff_eq] at h
  obtain ⟨⟨⟨h1, h2⟩, h3⟩, h4⟩ := h
  refine ⟨⟨fun h => absurd h h1, fun h => ?_, ?_, h4⟩, fun h => h1 (by rw [h]; rfl)⟩
  · rcases h2 with h2 | h2
    · exact absurd h h2
    · exact h2
  · rw [h3]; simp

theorem unit_sound_of_check {s : State} {u : Fin 2} (h : unitCheck s u = true) : unitSound s u := by
  simp only [unitCheck, Bool.or_eq_true, beq_iff_eq] at h
  rcases h with h | h
  · exact .inl h
  · cases hc : (s.unit u).clip with
    | none => simp [hc] at h
    | some c =>
      simp only [hc, Bool.and_eq_true, Bool.or_eq_true, decide_eq_true_eq, beq_iff_eq] at h
      obtain ⟨⟨⟨⟨h1, h2⟩, h3⟩, h4⟩, h5⟩ := h
      refine .inr ⟨c, hc, h1, h2, h3, h4, ?_⟩
      rcases h5 with ⟨⟨a, b⟩, d⟩ | ⟨⟨a, b⟩, d⟩
      · exact .inl ⟨a, b, d⟩
      · exact .inr ⟨a, b, d⟩

theorem voicesOf_high (s : State) {c : Nat} (h : 512 ≤ c) : s.voicesOf c = 0 := by
  have hz : ∀ i, (match (s.lane i).copy with
      | none => 0
      | some r => r.voices.countP fun v => v.clip.val == c) = 0 := by
    intro i
    split
    · rfl
    · rw [List.countP_eq_zero]
      intro v _
      have := v.clip.isLt
      simp; omega
  unfold State.voicesOf
  refine List.sum_eq_zero fun n hn => ?_
  obtain ⟨i, -, rfl⟩ := List.mem_map.mp hn
  exact hz i

/-- The check and the places of the blocks give soundness. -/
theorem sound_of_check {s : State} (h : soundCheck s = true) (hb : s.blocksSound) : s.Sound := by
  simp only [soundCheck, Bool.and_eq_true] at h
  obtain ⟨⟨⟨⟨⟨⟨⟨⟨⟨⟨⟨hcan, hrep⟩, hcue⟩, htr⟩, hmap⟩, hlaw⟩, htab⟩, hlane⟩, hrec⟩, hq⟩, hcap⟩, hu⟩ := h
  obtain ⟨⟨⟨⟨c1, c2⟩, c3⟩, c4⟩, c5⟩ := hcan
  obtain ⟨⟨⟨r1, r2⟩, r3⟩, r4⟩ := hrep
  obtain ⟨⟨t1, t2⟩, t3⟩ := htr
  obtain ⟨⟨m1, m2⟩, m3⟩ := hmap
  obtain ⟨l1, l2⟩ := hlane
  obtain ⟨⟨⟨⟨⟨v1, v2⟩, v3⟩, v4⟩, v5⟩, v6⟩ := hrec
  obtain ⟨⟨p1, p2⟩, p3⟩ := hcap
  simp only [List.all_eq_true, decide_eq_true_eq, List.mem_finRange, forall_const, Bool.or_eq_true, beq_iff_eq,
    bne_iff_ne, ne_eq] at *
  have hclips : ∀ p ∈ s.clips, p.2.sound ∧ p.2 ≠ Clip.freed := fun p hp => clip_sound_of_check (p1 p hp)
  have hhigh : ∀ c, 512 ≤ c → s.clip c = Clip.freed := by
    intro c hc
    unfold State.clip
    have : ∀ l : List (Nat × Clip), (∀ p ∈ l, p.1 < 512) → sparseFind l c = none := by
      intro l
      induction l with
      | nil => exact fun _ => rfl
      | cons q l ih =>
        intro hl
        obtain ⟨b, w⟩ := q
        have := hl (b, w) (by simp)
        simp only [sparseFind]
        rw [if_neg (by simp only at this; omega)]
        exact ih fun p hp => hl p (List.mem_cons_of_mem _ hp)
    rw [this _ c5]
    rfl
  refine ⟨⟨c1, c2, c3, c4, fun p hp => ⟨c5 p hp, (hclips p hp).2⟩⟩, ⟨r1, r2, r3, ?_⟩, ⟨t1, hcue⟩, ⟨t1, t2, t3, ?_⟩,
    ⟨m1, m2, m3⟩, hlaw, fun p hp => record_sound_of_check (htab p hp), ⟨fun i => lane_sound_of_check (l1 i), fun j i => ?_⟩,
    ⟨v1, v2, v3, v4, v5, v6⟩, fun hl => ?_, ⟨fun p hp => (hclips p hp).1, fun u => unit_sound_of_check (p2 u), ?_⟩, hb,
    ⟨fun c => ?_, fun c => ?_⟩⟩
  · cases hr : s.reports with
    | nil => simpa [hr] using r4
    | cons r rs => simpa [hr] using r4
  · intro hl
    exact (quiet_of_check (hq.resolve_left hl)).2.2.1
  · have := l2 j i
    rw [← List.contains_iff_mem, ← this]
    simp
  · exact quiet_of_check (hq.resolve_left hl)
  · intro p hp u hf
    exact (p3 p hp u).resolve_left fun h => h hf
  · rcases Nat.lt_or_ge c 512 with hc | hc
    · have := hu
      simp only [usesCheck, List.all_eq_true, List.mem_range, Bool.and_eq_true, beq_iff_eq] at this
      exact (this c hc).1.1
    · rw [hhigh c hc, voicesOf_high s hc]
      rfl
  · rcases Nat.lt_or_ge c 512 with hc | hc
    · have := hu
      simp only [usesCheck, List.all_eq_true, List.mem_range, Bool.and_eq_true, beq_iff_eq, Bool.or_eq_true, bne_iff_ne,
        ne_eq] at this
      obtain ⟨⟨-, h1⟩, h2⟩ := this c hc
      refine ⟨fun h => ?_, fun h => h2.resolve_left fun k => k h⟩
      rcases h1 with (h1 | h1) | h1
      · exact absurd h1 h
      · exact .inl h1
      · exact .inr h1
    · rw [hhigh c hc]
      exact ⟨fun h => absurd rfl h, nofun⟩

/-- The blocks from `n` on free, the first `n` in chains in their order: every block in one place. -/
theorem blocks_of_drop {s : State} (n : Nat) (hf : s.freeBlocks = (List.range 4096).drop n)
    (hc : (s.clips.flatMap fun p => p.2.chain) = (List.range 4096).take n) : s.blocksSound := by
  unfold State.blocksSound State.allBlocks
  generalize List.range 4096 = l at *
  rw [hf, hc]
  have h : l.take n ++ l.drop n = l := List.take_append_drop n l
  have hp : (l.drop n ++ l.take n).Perm (l.take n ++ l.drop n) := List.perm_append_comm
  rwa [h] at hp

/-! The states -/

/-- A station that has just locked, nothing loaded. -/
def locked : State := { State.reset with lock := .locked }

/-- A record with one voice: slot 3, clip 7, 40 frames, two passes, one frame to a fade step, a forwarded end cue. -/
def jingle : Record where
  length := 40
  start := 0
  repeats := 1
  rIn := 1
  rOut := 1
  under := 20
  next := none
  reportStart := true
  reportEnd := true
  tag := 9
  endCue := some { cue := 301, offset := 44, forward := true }
  voices := [{ slot := 3, clip := 7 }]

/-- A pause record of 40 frames that links to record 6. -/
def pause : Record := { jingle with voices := [], endCue := none, reportEnd := false, next := some 6 }

/-- A READY clip of 100 samples in block 0. -/
def readyClip (uses : Nat) : Clip :=
  { state := .ready, length := 100, chain := [0], uses := uses, filler := none, short := false }

/-- A clip in some state as clip 7, in block 0 when it has samples, and record 5 LOADED. -/
def stocked (r : Record) (v : Clip) : State :=
  { locked with table := [(5, r)], clips := [(7, v)], freeBlocks := (List.range 4096).drop 1 }

/-- Lane 0 runs record 5, its context changed by `f`. -/
def running (r : Record) (f : Lane → Lane) : State :=
  { stocked r (readyClip r.voices.length) with
    lanes := (Vector.replicate 8 Lane.idle).set 0 (f (Lane.loaded 5 r 40))
    slots := Vector.ofFn fun j => if j ∈ r.slotSet then some 0 else none }

/-- Unit 0 at work on clip 9, slot 14, nothing written of the wanted length. -/
def capturing (state : UnitState) (cue : Option (Fin 4096)) (clip : ClipState) (wanted : Nat) : State :=
  { locked with
    clips := [(9, { state := clip, length := 0, chain := [], uses := 0, filler := some (.unit 0), short := false })]
    units := (Vector.replicate 2 CaptureUnit.idle).set 0
      { state := state, clip := some 9, slot := some 14, wanted := wanted, cue := cue, written := 0 } }

/-- Clip 9 filled by management, with samples in block 0 if any. -/
def filling (length : Nat) : State :=
  { locked with
    clips := [(9, { state := .filling, length := length, chain := (List.range 4096).take (blocksFor length), uses := 0,
                    filler := some .management, short := false })]
    freeBlocks := (List.range 4096).drop (blocksFor length) }

/-- A frame of sixteen zero samples with a control word, as the line carries it. -/
def frameWith (w : ControlWord) : LineFrame := composeFrame (Vector.replicate 16 0) w

/-- The next state of a command. -/
def after (i : Instr) (s : State) : State :=
  match exec i s with
  | .next t => t
  | .fault _ => s
  | .refused _ => s

end Sys2Proof.Tests
end

