-- ==== Sys2Proof/Tests/Slice0.lean ====
section
/-! SUPPORT. The tests: the checks of WellFormed, the manual's worked values, and one step of each command. Expected values
come from the manual's examples and tables or are worked by hand from its rules. -/

namespace Sys2Proof.Tests
open Sys2Proof Sys2Proof.Machine
set_option Elab.async false

/-! WellFormed refuses an ill-formed term of each kind -/

theorem test_wf_refuses_body_of_65 : (Instr.readStation 1 (List.replicate 65 0)).wellFormed = false := by decide +kernel
theorem test_wf_refuses_other_scope : (Instr.clearStationLanes 1 [1]).wellFormed = false := by decide +kernel
theorem test_wf_refuses_capture_now_with_cue : (Instr.captureNow 1 [0, 9, 14, 1, 900]).wellFormed = false := by
  decide +kernel
theorem test_wf_refuses_capture_armed_without_cue : (Instr.captureArmed 1 [0, 9, 14, 1, 0]).wellFormed = false := by
  decide +kernel
theorem test_wf_refuses_no_bits : (Instr.searchCandidate [] []).wellFormed = false := by decide +kernel
theorem test_wf_refuses_candidate_without_marker : (Instr.searchCandidate [true] (List.replicate 448 false)).wellFormed = false := by
  decide +kernel
theorem test_wf_refuses_candidate_of_449 : (Instr.searchCandidate [] (true :: lineBits (frameWith 0))).wellFormed = false := by
  decide +kernel
theorem test_wf_refuses_known_code_as_unknown : (Instr.unknownOrder 22 1 []).wellFormed = false := by decide +kernel
theorem test_wf_accepts : (Instr.clearStationAll 1 [3]).wellFormed = true ∧ (Instr.unknownOrder 23 1 []).wellFormed = true
    ∧ (Instr.searchCandidate [true] (lineBits (frameWith 0))).wellFormed = true := by decide +kernel

/-! The manual's worked values -/

/-- Table 3-1: entries 0, 1, 31, 32, 40 and 63 of the default law. -/
theorem test_default_law : State.defaultLaw[0] = 0 ∧ State.defaultLaw[1] = 1040 ∧ State.defaultLaw[31] = 32248
    ∧ State.defaultLaw[32] = 33288 ∧ State.defaultLaw[40] = 41610 ∧ State.defaultLaw[63] = 65536 := by decide +kernel

/-- Section 3.3: T = 10, r_in 2, r_out 3: index and phase at frames 1, 3, 4 and 9. -/
theorem test_fade_table :
    let r : Record := { jingle with rIn := 2, rOut := 3 }
    (fadeIndex r 10 1, phaseAt r 10 1) = (0, .fadeIn) ∧ (fadeIndex r 10 3, phaseAt r 10 3) = (1, .fadeIn)
      ∧ (fadeIndex r 10 4, phaseAt r 10 4) = (1, .fadeOut) ∧ (fadeIndex r 10 9, phaseAt r 10 9) = (0, .fadeOut) := by
  decide +kernel

/-- Section 3.4 and 11.3: the recomputed totals 15, 2,190 and 17. -/
theorem test_recompute : recomputedTotal { jingle with rIn := 4, rOut := 2 } 1000 10 = 15
    ∧ recomputedTotal { jingle with rIn := 0, rOut := 3 } 5000 2000 = 2190
    ∧ recomputedTotal { jingle with rIn := 3, rOut := 2 } 2000 10 = 17 := by decide +kernel

/-- Section 3.5: the four worked samples. -/
theorem test_mix : (mixSample locked 1000000 (-500000) 32 0).toInt = 261901
    ∧ (mixSample locked 1000000 (-500000) 32 40).toInt = 190475
    ∧ (mixSample locked 8000000 8000000 63 63).toInt = 8388607 ∧ (mixSample locked (-3) 0 1 63).toInt = 0 := by
  decide +kernel

/-- Section 7.6: the control word and the check of the worked frame, and of the one with samples −1 and 1. -/
theorem test_frame_check :
    let w := controlWord .cue 2 (cuePayload 300 12)
    w = 0x2212C00C ∧ frameCheck (Vector.replicate 16 0) w = 0xC00C
      ∧ frameCheck (((Vector.replicate 16 0).set 0 0xFFFFFF).set 1 1) w = 0xC00C := by decide +kernel

/-- Table 7-3: marker in the first sixteen bits, slot 0 next, the check last. -/
theorem test_frame_places :
    (frameWith 0).extractLsb' 432 16 = 0x5A3C
      ∧ (composeFrame ((Vector.replicate 16 0).set 0 0xABCDEF) 0).extractLsb' 408 24 = 0xABCDEF
      ∧ (frameWith 0x2212C00C).extractLsb' 0 16 = 0xC00C := by decide +kernel

/-- Section 8.7: the words of the TAKE; section 10.9: the words of its acknowledgement. -/
theorem test_order_words : headPayload 9 37 4 = 599300 ∧ bodyCheck 599300 [2, 20, 12, 0] = 9510
    ∧ endPayload 9510 4 = 2434564 ∧ headPayload 0 37 2 = 9474 ∧ endPayload (bodyCheck 9474 [9, 0]) 2 = 2427650 := by
  decide +kernel

/-- R104: 5 is later than 4,294,967,290, and not the other way round. -/
theorem test_later_across_wrap : laterThan 5 4294967290 = true ∧ laterThan 4294967290 5 = false
    ∧ laterThan 5 5 = false := by decide +kernel

/-! Power and the receiver -/

theorem test_powerOn : (after (.powerOn 5) locked).lock = .search ∧ (after (.powerOn 5) locked).station = 5 := by
  decide +kernel
/-- R132, R133: the frame received before the assertion still leaves. -/
theorem test_resetAssert : (after .resetAssert { locked with lineOut := 77 }).resetLine = true
    ∧ (after .resetAssert { locked with lineOut := 77 }).lock = .search
    ∧ (after .resetAssert { locked with lineOut := 77 }).lineOut = 77 := by decide +kernel
theorem test_resetRelease : (after (.resetRelease 31) (after .resetAssert locked)).transparent = true
    ∧ (after (.resetRelease 31) locked).station = 1 := by decide +kernel
/-- R126: a marker 16 bits before a good frame starts a bad candidate, and the good one is found in turn behind it. -/
theorem test_searchCandidate :
    let t := after (.searchCandidate ((lineBits (frameWith 0)).take 16) (lineBits (frameWith 0))) State.reset
    t.lock = .confirm ∧ t.confirm = 1 ∧ t.nextBit = 464 ∧ t.lineOut = frameWith 0 := by decide +kernel
/-- R126, R133: three bits are passed on and wait; 450 bits without a frame leave the search at its fourth position. -/
theorem test_searchCandidate_bad : (after (.searchCandidate [true] [false, true]) State.reset).lineOut = 5
    ∧ (after (.searchCandidate [true] [false, true]) State.reset).waitingBits = 3
    ∧ (after (.searchCandidate [true, true] (List.replicate 448 true)) State.reset).nextBit = 3
    ∧ (after (.searchCandidate [true, true] (List.replicate 448 true)) State.reset).waitingBits = 447 := by decide +kernel
/-- R127, R126: after a bad frame in CONFIRM the frame that starts 16 bits into it is found with its last 16 bits. -/
theorem test_search_resumes_inside_a_bad_frame :
    let first := after (.confirmFrame ((frameWith 0 >>> 16) ||| (0x1234 <<< 432)))
      { State.reset with lock := .confirm, confirm := 4 }
    let t := after (.searchCandidate [] ((lineBits (frameWith 0)).drop 432)) first
    first.lock = .search ∧ t.lock = .confirm ∧ t.confirm = 1 ∧ t.nextBit = 464 ∧ t.lineOut = frameWith 0 := by
  decide +kernel
theorem test_confirmFrame_eighth :
    (after (.confirmFrame (frameWith 0)) { State.reset with lock := .confirm, confirm := 7 }).lock = .locked
      ∧ (after (.confirmFrame (frameWith 0)) { State.reset with lock := .confirm, confirm := 7 }).reports
        = [{ code := 11, seq := 0, body := [] }] := by decide +kernel

/-! Frame arrivals -/

/-- R134, R193: a cue word for another station passes; the frame count advances. -/
theorem test_frameArrival_passes :
    let t := after (.frameArrival (frameWith 0x2212C00C)) locked
    t.frameCount = 1 ∧ (frameOfLine t.lineOut).control = 0x2212C00C := by decide +kernel

/-- R130: the third bad frame in a row ends the lock and passes unchanged. -/
theorem test_frameArrival_third_bad :
    let t := after (.frameArrival 77) { locked with badRun := 2 }
    t.lock = .search ∧ t.lineOut = 77 ∧ t.reports = [{ code := 12, seq := 0, body := [0, 1] }] := by decide +kernel

/-- R46, R61: the frame after the load is mixed at index 1 from clip position 1: 1,000,000 × 1,040 / 65,536 = 15,869.1. -/
theorem test_frameArrival_mixes :
    let s := { running jingle id with memory := [(0, 5), (1, 1000000)] }
    (frameOfLine (after (.frameArrival (frameWith 0)) s).lineOut).samples[3] = 15869 := by decide +kernel

/-! The events of the frame work -/

theorem test_timeout :
    let a : Assembly :=
      { address := 1, code := 9, seq := 37, declared := 4, body := [], sum := 0, start := 0 }
    (after .timeout { locked with frameCount := 2048, assembly := some a }).reports
        = [{ code := 13, seq := 0, body := [37, 4] }]
      ∧ (after .timeout { locked with frameCount := 2046, assembly := some a }).assembly = some a := by decide +kernel

/-- R57: k 10 at index 10, r_out 1: T falls from 80 to 21. -/
theorem test_applyRelease :
    let t := after (.applyRelease 0) (running jingle fun l => { l with k := 10, waiting := some .release })
    (t.lane 0).total = 21 ∧ (t.lane 0).mark = .released ∧ (t.lane 0).waiting = none := by decide +kernel

theorem test_applyAbort :
    let t := after (.applyAbort 0) (running jingle fun l => { l with k := 10, waiting := some .abort })
    t.lane 0 = Lane.idle ∧ t.slots[3] = none ∧ (t.clip 7).uses = 0
      ∧ t.reports = [{ code := 2, seq := 0, body := [0, 5, 9, 3] }] ∧ t.cueOut = [] := by decide +kernel

/-- R29, R118, R119: NORMAL end at the arrival of count 1, the forwarded end cue due 44 frames on; the row and the arrival. -/
theorem test_recordEnd :
    let s := running jingle fun l => { l with k := 79 }
    let t := after (.recordEnd 0) s
    t.lane 0 = Lane.idle ∧ t.reports = [{ code := 2, seq := 0, body := [0, 5, 9, 0] }] ∧ t.frameCount = 0
      ∧ t.cueOut = [{ cue := 301, due := 45 }] ∧ (after (.frameArrival (frameWith 0)) s).cueOut = t.cueOut := by decide +kernel

/-- R105, R118: an end cue of offset 0 does not fall due at the arrival at which its record ends. -/
theorem test_recordEnd_cue_waits :
    let r := { jingle with endCue := some { cue := 301, offset := 0, forward := false } }
    let s := { running r (fun l => { l with k := 79 }) with cueMap := [{ cue := 301, lane := 1, record := 5, policy := .queue }] }
    let t := after (.recordEnd 0) s
    t.triggers = [{ due := 1, admitted := 1, kind := .cue 301 }] ∧ (after .triggerFallsDue t).triggers = t.triggers
      ∧ (after (.frameArrival (frameWith 0)) t).triggers = t.triggers := by decide +kernel

theorem test_triggerFallsDue :
    let e : TriggerEntry := { due := 1, admitted := 0, kind := .take 2 5 .queue }
    let t := after .triggerFallsDue { stocked jingle (readyClip 0) with triggers := [e] }
    (t.lane 2).source = some 5 ∧ (t.lane 2).total = 80 ∧ t.slots[3] = some 2 ∧ (t.clip 7).uses = 1 ∧ t.triggers = []
      ∧ t.reports = [{ code := 1, seq := 0, body := [2, 5, 9] }] := by decide +kernel

theorem test_captureComplete :
    let t := after (.captureComplete 0) (capturing .recording none .filling 1)
    (t.clip 9).state = .ready ∧ (t.clip 9).length = 1 ∧ (t.clip 9).chain = [0] ∧ t.unit 0 = CaptureUnit.idle
      ∧ t.reports = [{ code := 7, seq := 0, body := [0, 9, 1, 0] }] := by decide +kernel

/-- Section 10.9, frame count 1,007: offset 1,050 − 1,007 = 43. The row is that arrival too. -/
theorem test_cueOutSent :
    let s := { locked with frameCount := 1006, cueOut := [{ cue := 301, due := 1050 }] }
    let t := after (.frameArrival (frameWith 0)) s
    (frameOfLine t.lineOut).control = controlWord .cue 0 (cuePayload 301 43) ∧ t.cueOut = []
      ∧ (after .cueOutSent s).cueOut = [] ∧ (after .cueOutSent s).frameCount = 1007 := by decide +kernel

/-- Section 10.9, frame counts 1,016 and 1,019: the HEAD and the END of the acknowledgement, for station 4. -/
theorem test_reportWordSent :
    let s := { locked with station := 4, reports := [{ code := 0, seq := 37, body := [9, 0] }] }
    let i := Instr.frameArrival (frameWith 0)
    (frameOfLine (after i s).lineOut).control = controlWord .reportHead 4 9474
      ∧ (frameOfLine (after i { s with wordPos := 3 }).lineOut).control = controlWord .reportEnd 4 2427650
      ∧ (after .reportWordSent s).wordPos = 1 ∧ (after .reportWordSent { s with wordPos := 3 }).reports = [] := by
  decide +kernel

/-- R189, R191: at the count of the lock no report word has left, and the next frame carries the HEAD of LINK LOCKED. -/
theorem test_reportWordSent_after_lock :
    let s := after (.confirmFrame (frameWith 0)) { State.reset with lock := .confirm, confirm := 7 }
    s.lineOut = frameWith 0 ∧ s.wordPos = 0
      ∧ (frameOfLine (after (.frameArrival (frameWith 0)) s).lineOut).control = controlWord .reportHead 1 0x0B0000
      ∧ (after .reportWordSent s).frameCount = 1 ∧ (after .reportWordSent s).wordPos = 1 := by decide +kernel

/-! Orders: each answers with order code, status and data -/

/-- The body of the last acknowledgement. -/
def answer (i : Instr) (s : State) : List Nat := ((after i s).reports.map fun r => r.body.map BitVec.toNat).getLastD []

theorem test_readStation : answer (.readStation 1 []) { locked with frameCount := 16777217 }
    = [1, 0, 1, 2, 1, 1, 4096, 0, 0, 0, 0, 0, 0, 0, 0, 0, 0, 0, 0, 0, 256] := by decide +kernel
theorem test_clearStationLanes :
    let t := after (.clearStationLanes 1 [0]) (running jingle id)
    t.lane 0 = Lane.idle ∧ t.table = [(5, jingle)] ∧ t.reports.map Report.code = [0, 2] := by decide +kernel
theorem test_clearStationTables : (after (.clearStationTables 1 [1]) (stocked jingle (readyClip 0))).table = []
    ∧ (after (.clearStationTables 1 [1]) (stocked jingle (readyClip 0))).clips = [(7, readyClip 0)] := by decide +kernel
theorem test_clearStationStore :
    let t := after (.clearStationStore 1 [2]) (capturing .armed (some 900) .reserved 1)
    t.clips = [] ∧ t.unit 0 = CaptureUnit.idle ∧ t.reports.map Report.code = [0, 8] := by decide +kernel
theorem test_clearStationAll :
    let t := after (.clearStationAll 1 [3]) (stocked jingle (readyClip 0))
    t.table = [] ∧ t.clips = [] ∧ t.freeBlocks.length = 4096 ∧ t.freeBlocks.head? = some 0 := by decide +kernel

/-- Table 9-4: the fields of a LOAD RECORD in their order. -/
def jingleBody : List Payload := [5, 40, 0, 1, 1, 1, 20, 256, 1, 1, 9, 301, 44, 1, 1, 3, 7]

theorem test_loadRecord : (after (.loadRecord 1 jingleBody) locked).table = [(5, jingle)] := by decide +kernel
theorem test_loadRecord_refuses_slot_twice :
    answer (.loadRecord 1 ([5, 40, 0, 1, 1, 1, 20, 256, 1, 1, 9, 301, 44, 1, 2, 3, 7, 3, 8])) locked = [3, 18] := by
  decide +kernel
theorem test_eraseRecord : (after (.eraseRecord 1 [5]) (stocked jingle (readyClip 0))).table = []
    ∧ answer (.eraseRecord 1 [6]) (stocked jingle (readyClip 0)) = [4, 19] := by decide +kernel
theorem test_readRecord : answer (.readRecord 1 [5]) (stocked jingle (readyClip 0))
    = [5, 0, 1, 40, 0, 1, 1, 1, 20, 256, 1, 1, 9, 301, 44, 1, 1, 3, 7] := by decide +kernel
theorem test_mapCue : (after (.mapCue 1 [120, 0, 30, 2]) locked).cueMap
    = [{ cue := 120, lane := 0, record := 30, policy := .skip }] := by decide +kernel
theorem test_unmapCue : answer (.unmapCue 1 [120]) locked = [7, 19]
    ∧ (after (.unmapCue 2 [120]) (after (.mapCue 1 [120, 0, 30, 2]) locked)).cueMap = [] := by decide +kernel
/-- R109: record + 256 × lane + 2,048 × policy. -/
theorem test_readCueMap : answer (.readCueMap 2 []) (after (.mapCue 1 [120, 3, 30, 1]) locked)
    = [8, 0, 1, 1, 120, 2846] := by decide +kernel
/-- Section 8.7: due 12 frames on. -/
theorem test_take : (after (.take 37 [2, 20, 12, 0]) { locked with frameCount := 500 }).triggers
    = [{ due := 512, admitted := 500, kind := .take 2 20 .queue }] := by decide +kernel
theorem test_readTriggers : answer (.readTriggers 2 []) (after (.take 37 [2, 20, 12, 1]) locked)
    = [22, 0, 1, 12, 4106, 20] := by decide +kernel
theorem test_release : ((after (.release 1 [0]) (running jingle id)).lane 0).waiting = some .release
    ∧ answer (.release 1 [1]) (running jingle id) = [10, 20] := by decide +kernel
theorem test_abort : ((after (.abort 1 [0]) (running jingle id)).lane 0).waiting = some .abort
    ∧ answer (.abort 1 [8]) (running jingle id) = [11, 18] := by decide +kernel
theorem test_readLane_idle : answer (.readLane 1 [0]) locked = [12, 0, 0, 256, 0, 0, 0, 0, 0, 0, 256, 0, 0] := by
  decide +kernel
theorem test_readLane_busy : answer (.readLane 1 [0]) (running jingle id)
    = [12, 0, 1, 5, 0, 0, 40, 0, 80, 0, 256, 0, 1, 3] ++ [40, 0, 1, 1, 1, 20, 256, 1, 1, 9, 301, 44, 1, 1, 3, 7] := by
  decide +kernel
theorem test_openClip : ((after (.openClip 1 [9]) locked).clip 9).state = .filling
    ∧ (after (.openClip 1 [9]) locked).freeBlocks.length = 4096 := by decide +kernel
theorem test_appendClip :
    let t := after (.appendClip 2 [9, 11, 12]) (after (.openClip 1 [9]) locked)
    (t.clip 9).chain = [0] ∧ t.readClipSample 9 1 = 12 ∧ t.freeBlocks.head? = some 1 := by decide +kernel
theorem test_appendClip_refuses_store_full :
    answer (.appendClip 2 [9, 11]) { after (.openClip 1 [9]) locked with freeBlocks := [] } = [14, 24] := by decide +kernel
theorem test_closeClip : answer (.closeClip 2 [9]) (after (.openClip 1 [9]) locked) = [15, 25]
    ∧ ((after (.closeClip 3 [9]) (after (.appendClip 2 [9, 11]) (after (.openClip 1 [9]) locked))).clip 9).state
      = .ready := by decide +kernel
/-- R82: in use the clip becomes DOOMED, unused it is FREE and its block joins the tail. -/
theorem test_deleteClip : ((after (.deleteClip 1 [7]) (running jingle id)).clip 7).state = .doomed
    ∧ (after (.deleteClip 1 [7]) (stocked jingle (readyClip 0))).freeBlocks.getLast? = some 0 := by decide +kernel
theorem test_readClip : answer (.readClip 1 [7]) (running jingle id) = [17, 0, 3, 100, 1, 3, 0, 1, 0] := by decide +kernel
theorem test_captureNow : ((after (.captureNow 1 [0, 9, 14, 1048576, 0]) locked).unit 0).state = .recording
    ∧ answer (.captureNow 1 [0, 9, 14, 1048577, 0]) locked = [18, 18] := by decide +kernel
theorem test_captureArmed : ((after (.captureArmed 1 [1, 70, 14, 300, 900]) locked).unit 1).cue = some 900
    ∧ ((after (.captureArmed 1 [1, 70, 14, 300, 900]) locked).clip 70).state = .reserved := by decide +kernel
theorem test_cancelCapture :
    let t := after (.cancelCapture 1 [0]) (capturing .armed (some 900) .reserved 1)
    t.clips = [] ∧ t.reports.map (fun r => (r.code, r.body)) = [(0, [19, 0]), (8, [0, 9, 0])] := by decide +kernel
theorem test_loadLaw : (after (.loadLaw 1 (List.replicate 64 65536)) locked).law[5] = 65536
    ∧ answer (.loadLaw 1 (List.replicate 64 65537)) locked = [20, 18] := by decide +kernel
theorem test_readLaw : (answer (.readLaw 1 []) locked).take 5 = [21, 0, 0, 1040, 2081] := by decide +kernel
theorem test_unknownOrder : answer (.unknownOrder 23 1 [1, 2]) locked = [23, 16] := by decide +kernel

/-- R157: the second copy of a TAKE is answered REPEATED with the first one's status and enters nothing. -/
theorem test_repeat :
    let t := after (.take 37 [2, 20, 12, 0]) locked
    answer (.take 37 [2, 20, 12, 0]) t = [9, 1, 0] ∧ (after (.take 37 [2, 20, 12, 0]) t).triggers = t.triggers := by
  decide +kernel

/-! The table -/

/-- No row of the table has bits, so no word spells a command. -/
theorem test_decode : decodeTableWord 32 0x2212C00C = none ∧ (State.reset.withFetchWord 32 5).pending = [] := by
  decide +kernel

end Sys2Proof.Tests
end

