-- ==== Sys2Proof/Tests/Witnesses.lean ====
section
/-! SUPPORT. For every statement with hypotheses, concrete states and operands that meet all of them together, clause by
clause where a statement has several. -/

namespace Sys2Proof.Tests
open Sys2Proof Sys2Proof.Machine
set_option Elab.async false

/-! Soundness of the states used below -/

theorem sound_all_free {s : State} (h : soundCheck s = true) (hf : s.freeBlocks = List.range 4096)
    (hc : (s.clips.flatMap fun p => p.2.chain) = []) : s.Sound :=
  sound_of_check h (blocks_of_drop 0 (hf.trans List.drop_zero.symm) (hc.trans List.take_zero.symm))

theorem sound_one_claimed {s : State} (h : soundCheck s = true) (hf : s.freeBlocks = (List.range 4096).drop 1)
    (hc : (s.clips.flatMap fun p => p.2.chain) = (List.range 4096).take 1) : s.Sound :=
  sound_of_check h (blocks_of_drop 1 hf hc)

theorem filling_free : (filling 255).freeBlocks = (List.range 4096).drop 1 := by
  have h : blocksFor 255 = 1 := by decide
  simp only [filling, h]

/-- A locked station with an empty Report Queue and an empty last-taken memory takes every order afresh. -/
theorem fresh {s : State} (hl : s.lock = .locked) (hr : s.reports = []) (hm : s.lastTaken = none) (code seq : BitVec 8) :
    s.takesFresh code seq :=
  ⟨⟨hl, by rw [hr]; decide⟩, fun m h => by rw [hm] at h; cases h⟩

theorem locked_fresh (code seq : BitVec 8) : locked.takesFresh code seq := fresh rfl rfl rfl code seq

theorem running_sound : (running jingle id).Sound :=
  sound_one_claimed (by decide +kernel) (by simp only [running, stocked]) (by decide +kernel)

theorem stocked_sound : (stocked jingle (readyClip 0)).Sound :=
  sound_one_claimed (by decide +kernel) (by simp only [stocked]) (by decide +kernel)

theorem stocked_canonical (v : Clip) (h : v ≠ Clip.freed) : (stocked jingle v).canonical :=
  ⟨rfl, rfl, rfl, fun p hp => by rw [List.mem_singleton.mp hp]; exact Nat.lt_of_sub_eq_succ rfl,
    fun p hp => by rw [List.mem_singleton.mp hp]; exact ⟨Nat.lt_of_sub_eq_succ rfl, h⟩⟩

theorem capturing_sound : (capturing .armed (some 900) .reserved 300).Sound :=
  sound_all_free (by decide +kernel) (by simp only [capturing, locked, State.reset, State.powerOn]) (by decide +kernel)

theorem recording_sound (wanted : Nat) (h : soundCheck (capturing .recording none .filling wanted) = true) :
    (capturing .recording none .filling wanted).Sound :=
  sound_all_free h (by simp only [capturing, locked, State.reset, State.powerOn]) rfl

/-- The Cue Map entry of the end cue of `jingle`. -/
def endCueEntry : CueMapEntry := { cue := 301, lane := 0, record := 5, policy := .queue }

/-! The machine as a whole -/

theorem witness_StepRunsTheFrontCommand : ({ locked with pending := [.timeout] } : State).pending = .timeout :: []
    ∧ locked.pending = [] := ⟨rfl, rfl⟩

theorem witness_DefaultLawIsLinearAndExactAtItsEnds : State.reset.law = State.defaultLaw := rfl

/-- A frame arrives at a station with a splice running: the hypotheses of every invariant statement together. -/
theorem witness_step_keeps : ∃ s t : State, step s = .next t ∧ s.Sound ∧ s.lock = .locked :=
  ⟨{ running jingle id with pending := [.frameArrival (frameWith 0)] }, _, rfl,
    sound_one_claimed (by decide +kernel) (by simp only [running, stocked]) (by decide +kernel), rfl⟩

theorem witness_StepKeepsMemoryAndTables : ∃ s t : State, step s = .next t ∧ s.canonical ∧ s.tableSound ∧ s.cueMapSound
    ∧ s.lawSound := by
  obtain ⟨s, t, h, hs, -⟩ := witness_step_keeps
  exact ⟨s, t, h, hs.canonical, hs.table, hs.cueMap, hs.law⟩

theorem witness_StepKeepsLanesAndSlotTable : ∃ s t : State, s.lanesSound ∧ step s = .next t := by
  obtain ⟨s, t, h, hs, -⟩ := witness_step_keeps
  exact ⟨s, t, hs.lanes, h⟩

theorem witness_StepKeepsReportQueueBounds : ∃ s t : State, s.reportsBounded ∧ step s = .next t := by
  obtain ⟨s, t, h, hs, -⟩ := witness_step_keeps
  exact ⟨s, t, hs.reports, h⟩

theorem witness_StepKeepsTriggerQueueOrdered : ∃ s t : State, s.triggersOrdered ∧ s.cueOut.length ≤ 4 ∧ step s = .next t := by
  obtain ⟨s, t, h, hs, -⟩ := witness_step_keeps
  exact ⟨s, t, hs.order, hs.triggers.2, h⟩

/-- The third bad frame takes the station out of LOCKED. -/
theorem witness_StepKeepsReceiverAndQuiet : ∃ s t : State, step s = .next t ∧ s.receiverSound ∧ s.lanesSound
    ∧ s.captureSound ∧ (s.lock ≠ .locked → s.quiet) ∧ t.lock ≠ .locked := by
  have hs : ({ running jingle id with badRun := 2, pending := [.frameArrival 77] } : State).Sound :=
    sound_one_claimed (by decide +kernel) (by simp only [running, stocked]) (by decide +kernel)
  exact ⟨_, _, rfl, hs.receiver, hs.lanes, hs.capture, hs.quiet, by decide +kernel⟩

theorem witness_StepKeepsClipsAndUnits : ∃ s t : State, s.canonical ∧ s.captureSound ∧ step s = .next t := by
  obtain ⟨s, t, h, hs, -⟩ := witness_step_keeps
  exact ⟨s, t, hs.canonical, hs.capture, h⟩

theorem witness_StepKeepsBlocksInOnePlace : ∃ s t : State, s.canonical ∧ s.captureSound ∧ s.blocksSound
    ∧ step s = .next t := by
  obtain ⟨s, t, h, hs, -⟩ := witness_step_keeps
  exact ⟨s, t, hs.canonical, hs.capture, hs.blocks, h⟩

theorem witness_StepKeepsUseCounts : ∃ s t : State, s.canonical ∧ s.captureSound ∧ s.lanesSound ∧ s.usesSound
    ∧ step s = .next t := by
  obtain ⟨s, t, h, hs, -⟩ := witness_step_keeps
  exact ⟨s, t, hs.canonical, hs.capture, hs.lanes, hs.uses, h⟩

/-! Frames, words and the taking of orders -/

theorem witness_FrameAndWordLayoutsRoundTrip : 255 < 256 := by decide

/-- A TAKE with every word but its END received. -/
def gathered : Assembly := { address := 1, code := 9, seq := 37, declared := 0, body := [], sum := 9504, start := 0 }

/-- The longest body, with its check and with another; and the END word of an order in assembly. -/
theorem witness_SentOrderIsGathered : (List.replicate 64 (0 : Payload)).length ≤ 64
    ∧ (∃ check, check ≠ bodyCheck (headPayload 9 37 64) (List.replicate 64 0))
    ∧ ∃ s : State, s.lock = .locked ∧ s.assembly = some gathered ∧ gathered.address = s.station
      ∧ gathered.body.length = gathered.declared ∧ gathered.declared ≤ 64
      ∧ (frameOfLine (frameWith (controlWord .orderEnd 1 (endPayload 9504 0)))).good = true
      ∧ (frameOfLine (frameWith (controlWord .orderEnd 1 (endPayload 9504 0)))).control
        = controlWord .orderEnd gathered.address (endPayload gathered.sum gathered.declared)
      ∧ s.frameCount + 1 ≠ gathered.start + 2048 ∧ orderParts (.take 37 []) = some (gathered.code, gathered.seq, gathered.body) :=
  ⟨by decide, ⟨0, by decide +kernel⟩, { locked with assembly := some gathered }, rfl, rfl, rfl, rfl, by decide,
    by decide +kernel, by decide +kernel, by decide +kernel, rfl⟩

theorem witness_UnlockedStationTakesNothing : State.reset.lock ≠ .locked
    ∧ orderParts (.take 37 []) = some (9, 37, []) := ⟨nofun, rfl⟩

/-- 24 event reports and 8 acknowledgements fill the queue. -/
def fullReports : State :=
  { locked with
    reports := List.replicate 24 { code := 10, seq := 0, body := [1] } ++ List.replicate 8 { code := 0, seq := 1, body := [1, 0] } }

theorem witness_FullReportQueueDropsTheOrder : orderParts (.take 37 []) = some (9, 37, [])
    ∧ (fullReports.lock = .locked ∧ fullReports.reportsBounded ∧ fullReports.reports.length = 32)
    ∧ (locked.lock = .locked ∧ locked.reportsBounded ∧ locked.reports.length < 32) :=
  ⟨rfl, ⟨rfl, ⟨by decide, by decide, by decide, Nat.zero_le _⟩, by decide⟩,
    rfl, ⟨by decide, by decide, by decide, rfl⟩, by decide⟩

theorem witness_RepeatedOrderIsNotExecuted : ∃ s : State, orderParts (.take 37 []) = some (9, 37, [])
    ∧ (9 : BitVec 8) ∈ changingCodes ∧ s.takesOrders
    ∧ s.lastTaken = some { seq := 37, code := 9, status := .badLength } :=
  ⟨{ locked with lastTaken := some { seq := 37, code := 9, status := .badLength } }, rfl, by decide, ⟨rfl, by decide⟩, rfl⟩

theorem witness_TakenOrderIsAnsweredOnce : ∃ t, orderParts (.take 37 []) = some (9, 37, []) ∧ locked.takesOrders
    ∧ exec (.take 37 []) locked = .next t := ⟨_, rfl, ⟨rfl, by decide⟩, rfl⟩

theorem witness_UnknownOrderIsAnswered : locked.takesOrders ∧ ((0 : BitVec 8) = 0 ∨ 22 < (0 : BitVec 8).toNat)
    ∧ ((23 : BitVec 8) = 0 ∨ 22 < (23 : BitVec 8).toNat) ∧ ((255 : BitVec 8) = 0 ∨ 22 < (255 : BitVec 8).toNat) :=
  ⟨⟨rfl, by decide⟩, by decide, by decide, by decide⟩

/-- READ STATION asks for `takesOrders` alone; a body of no words and one of one word meet the two branches. -/
theorem witness_ReadStationReturnsTheSummary : locked.takesOrders ∧ ¬([] : List Payload).length ≠ 0
    ∧ ([0] : List Payload).length ≠ 0 := ⟨⟨rfl, by decide⟩, by decide, by decide⟩

/-- READ TRIGGERS asks for `takesOrders` alone, here with an entry of each kind in the queue. -/
theorem witness_ReadTriggersListsTheQueue :
    let s : State := { locked with triggers := [{ due := 7, admitted := 0, kind := .cue 9 },
      { due := 8, admitted := 0, kind := .take 2 5 .skip }] }
    s.takesOrders ∧ s.triggers.length = 2 := ⟨⟨rfl, by decide⟩, rfl⟩

/-! Station, record and lane orders -/

theorem witness_ClearStationReachesItsScope : (running jingle id).Sound ∧ (running jingle id).takesFresh 2 1
    ∧ ([] : List Payload).length ≠ 1 ∧ 3 < (4 : Payload).toNat ∧ Instr.clearStationAll 1 [4] ∈ [Instr.clearStationLanes 1 [4],
      .clearStationTables 1 [4], .clearStationStore 1 [4], .clearStationAll 1 [4]] :=
  ⟨running_sound, fresh rfl rfl rfl 2 1, by decide, by decide, by decide⟩

/-- The field conditions of LOAD RECORD, on the number each field carries. -/
def loadFields (f : Nat → Nat) : Prop :=
  f 0 ≤ 255 ∧ f 1 ≠ 0 ∧ f 3 ≤ 255 ∧ f 4 ≤ 1023 ∧ f 5 ≤ 1023 ∧ f 6 ≤ 63 ∧ f 7 ≤ 256 ∧ f 8 ≤ 1 ∧ f 9 ≤ 1 ∧ f 10 ≤ 255
    ∧ f 11 ≤ 4095 ∧ f 12 ≤ 4095 ∧ f 13 ≤ 1 ∧ (∀ v < f 14, f (15 + 2 * v) ≤ 15 ∧ f (16 + 2 * v) ≤ 511)
    ∧ ∀ v < f 14, ∀ w < v, f (15 + 2 * v) ≠ f (15 + 2 * w)

/-- The number field `n` of a body carries. -/
def field (body : List Payload) (n : Nat) : Nat := (body.getD n 0).toNat

/-- Every field at its greatest value, four voices. -/
def greatestBody : List Payload :=
  [255, 16777215, 16777215, 255, 1023, 1023, 63, 256, 1, 1, 255, 4095, 4095, 1, 4, 15, 511, 14, 511, 13, 511, 12, 511]

/-- One word too few and one too many; a fifth voice; a length that does not fit the number of voices; a length field of 0;
the greatest fields, and no voice. -/
theorem witness_LoadRecordTestsAndLoads : locked.takesFresh 3 1
    ∧ ¬(15 ≤ (greatestBody.take 14).length ∧ (greatestBody.take 14).length ≤ 23)
    ∧ ¬(15 ≤ (greatestBody ++ [0]).length ∧ (greatestBody ++ [0]).length ≤ 23)
    ∧ (15 ≤ (greatestBody.set 14 5).length ∧ (greatestBody.set 14 5).length ≤ 23 ∧ 4 < ((greatestBody.set 14 5).getD 14 0).toNat)
    ∧ ((greatestBody.set 14 3).length = 23 ∧ ((greatestBody.set 14 3).getD 14 0).toNat = 3)
    ∧ ((greatestBody.set 1 0).length = 15 + 2 * 4 ∧ ((greatestBody.set 1 0).getD 14 0).toNat = 4
      ∧ ¬loadFields (field (greatestBody.set 1 0)))
    ∧ (greatestBody.length = 15 + 2 * (greatestBody.getD 14 0).toNat ∧ loadFields (field greatestBody))
    ∧ (((greatestBody.take 14) ++ [0]).length = 15 ∧ loadFields (field ((greatestBody.take 14) ++ [0]))) := by
  refine ⟨locked_fresh 3 1, by decide, by decide, by decide +kernel, by decide +kernel, ?_, ?_, ?_⟩
  all_goals unfold loadFields
  all_goals decide +kernel

theorem witness_LoadedRecordIsReadBack : jingle.sound ∧ locked.takesFresh 3 1 ∧ locked.reports.length < 31 :=
  ⟨record_sound_of_check (by decide), locked_fresh 3 1, by decide⟩

theorem witness_EraseAndReadRecord : ∃ s : State, s.takesFresh 4 1 ∧ s.canonical ∧ s.takesOrders :=
  ⟨stocked jingle (readyClip 0), fresh rfl rfl rfl 4 1, stocked_sound.canonical, rfl, by decide⟩

theorem witness_ReleaseAndAbortWait : (running jingle id).takesFresh 10 1 ∧ (running jingle id).takesFresh 11 1
    ∧ ((WaitingOrder.release = .release ∧ (10 : BitVec 8) = 10 ∧ Instr.release 1 [7] = .release 1 [7])
      ∨ (WaitingOrder.release = .abort ∧ (10 : BitVec 8) = 11 ∧ Instr.release 1 [7] = .abort 1 [7]))
    ∧ ([] : List Payload).length ≠ 1 ∧ 7 < (8 : Payload).toNat ∧ ([7] : List Payload) = toPayloads [(7 : Fin 8).val] :=
  ⟨fresh rfl rfl rfl 10 1, fresh rfl rfl rfl 11 1, .inl ⟨rfl, rfl, rfl⟩, by decide, by decide, rfl⟩

theorem witness_ReadLaneReturnsTheContext : (running jingle id).takesOrders ∧ (running jingle id).lanesSound
    ∧ ([] : List Payload).length ≠ 1 ∧ 7 < (8 : Payload).toNat ∧ (running jingle id).lane 7 = Lane.idle
    ∧ ((running jingle id).lane 0).copy = some jingle ∧ (jingle.voices.map Voice.slot).Nodup :=
  ⟨⟨rfl, by decide⟩, running_sound.lanes, by decide, by decide, by decide +kernel, by decide +kernel, by decide⟩

/-! Cue orders -/

/-- A map of 64 cues, 4032 to 4095. -/
def fullMap : List CueMapEntry :=
  (List.finRange 64).map fun n => { cue := Fin.ofNat 4096 (4032 + n.val), lane := 7, record := 255, policy := .skip }

theorem witness_MapAndUnmapCue : (∀ map : List CueMapEntry, ({ locked with cueMap := map } : State).takesFresh 6 1
      ∧ ({ locked with cueMap := map } : State).takesFresh 7 1)
    ∧ ([0] : List Payload).length ≠ 4
    ∧ (∀ b ∈ ([[0, 0, 0, 0], [4096, 0, 0, 0], [1, 8, 0, 0], [1, 0, 256, 0], [1, 0, 0, 3]] : List (List Payload)),
        b.length = 4 ∧ ((b.getD 0 0).toNat = 0 ∨ 4095 < (b.getD 0 0).toNat ∨ 7 < (b.getD 1 0).toNat
          ∨ 255 < (b.getD 2 0).toNat ∨ 2 < (b.getD 3 0).toNat))
    ∧ (∃ e : CueMapEntry, e.cue ≠ 0 ∧ ([4095, 7, 255, 2] : List Payload)
        = toPayloads [e.cue.val, e.lane.val, e.record.val, e.policy.code] ∧ e.cue ∈ fullMap.map CueMapEntry.cue)
    ∧ fullMap.length = 64
    ∧ ([] : List Payload).length ≠ 1 ∧ 4095 < (([4096] : List Payload).getD 0 0).toNat
    ∧ ((4095 : Fin 4096) ≠ 0 ∧ ([4095] : List Payload) = toPayloads [(4095 : Fin 4096).val]) :=
  ⟨fun _ => ⟨fresh rfl rfl rfl 6 1, fresh rfl rfl rfl 7 1⟩, by decide, by decide,
    ⟨{ cue := 4095, lane := 7, record := 255, policy := .skip }, by decide, by decide, by decide +kernel⟩, by decide, by decide,
    by decide, by decide, by decide⟩

theorem witness_ReadCueMapListsInOrder : ∃ s : State, s.takesOrders ∧ s.cueMapSound ∧ s.cueMap.length = 64
    ∧ 1 < ([1, 1] : List Payload).length ∧ ((0 : Payload).toNat = 0 ∨ 4095 < (0 : Payload).toNat)
    ∧ ((4096 : Payload).toNat = 0 ∨ 4095 < (4096 : Payload).toNat)
    ∧ (([4095] : List Payload) = toPayloads [(4095 : Fin 4096).val] ∧ (4095 : Fin 4096) ≠ 0) :=
  ⟨{ locked with cueMap := fullMap }, ⟨rfl, by decide⟩, ⟨by decide, by decide +kernel⟩, by decide, by decide,
    by decide, by decide, by decide⟩

/-- An entry due at count 5, admitted at count 0. -/
def waitingEntry : TriggerEntry := { due := 5, admitted := 0, kind := .cue 1 }

/-- Fields one past their range; the greatest fields at a queue of 16 and of 15 entries. -/
theorem witness_TakeEntersATrigger : (∀ q : List TriggerEntry, ({ locked with triggers := q } : State).takesFresh 9 1)
    ∧ ([] : List Payload).length ≠ 4
    ∧ (∀ b ∈ ([[8, 0, 0, 0], [0, 256, 0, 0], [0, 0, 4096, 0], [0, 0, 0, 3]] : List (List Payload)),
        b.length = 4 ∧ (7 < (b.getD 0 0).toNat ∨ 255 < (b.getD 1 0).toNat ∨ 4095 < (b.getD 2 0).toNat ∨ 2 < (b.getD 3 0).toNat))
    ∧ ([7, 255, 4095, 2] : List Payload)
      = toPayloads [(7 : Fin 8).val, (255 : Fin 256).val, (4095 : Fin 4096).val, Policy.skip.code]
    ∧ 16 ≤ (List.replicate 16 waitingEntry).length ∧ (List.replicate 15 waitingEntry).length < 16 :=
  ⟨fun _ => fresh rfl rfl rfl 9 1, by decide, by decide, by decide, by decide, by decide⟩

/-! Clip, capture and law orders -/

theorem witness_OpenAndCloseClip : locked.canonical ∧ locked.takesFresh 13 1 ∧ ([] : List Payload).length ≠ 1
    ∧ 511 < (512 : Payload).toNat ∧ ([511] : List Payload) = toPayloads [(511 : Fin 512).val]
    ∧ (locked.clip 511).state = .free ∧ ((filling 0).clip 9).state ≠ .free
    ∧ (filling 0).canonical ∧ (filling 0).takesFresh 15 1
    ∧ (((filling 0).clip 9).state = .filling ∧ ((filling 0).clip 9).filler = some .management
      ∧ ((filling 0).clip 9).length = 0)
    ∧ (((filling 1).clip 9).state = .filling ∧ ((filling 1).clip 9).filler = some .management
      ∧ ((filling 1).clip 9).length ≠ 0)
    ∧ ¬((locked.clip 9).state = .filling ∧ (locked.clip 9).filler = some .management) :=
  ⟨⟨rfl, rfl, rfl, by decide +kernel⟩, locked_fresh 13 1, by decide, by decide, by decide,
    by decide +kernel, by decide +kernel, ⟨rfl, rfl, rfl, by decide +kernel⟩, fresh rfl rfl rfl 15 1,
    by decide +kernel⟩

/-- The order that fills block 0 to the brim and claims the next one for the sample after it. -/
theorem witness_AppendedSamplesReadBack : (∃ s : State, s.takesFresh 14 1 ∧ ([9] : List Payload).length < 2
      ∧ 64 < (9 :: List.replicate 64 (0 : Payload)).length ∧ 511 < (512 : Payload).toNat
      ∧ (s.clip 9).state = .filling ∧ (s.clip 9).filler = some .management
      ∧ s.freeBlocks.length < (256 + 1 + 255) / 256 - (256 + 255) / 256)
    ∧ (filling 255).Sound ∧ (filling 255).takesFresh 14 1 ∧ ((filling 255).clip 9).state = .filling
    ∧ ((filling 255).clip 9).filler = some .management ∧ ((filling 255).clip 9).length = 255
    ∧ (255 + 2 + 255) / 256 - (255 + 255) / 256 ≤ (filling 255).freeBlocks.length :=
  ⟨⟨{ filling 256 with freeBlocks := [] }, fresh rfl rfl rfl 14 1, by decide, by decide, by decide, by decide +kernel⟩,
    sound_one_claimed (by decide +kernel) filling_free (by decide +kernel), fresh rfl rfl rfl 14 1, by decide +kernel⟩

/-- A clip of each row of R82. -/
theorem witness_DeleteClipByState : (∀ v : Clip, v ≠ Clip.freed → (stocked jingle v).canonical
      ∧ (stocked jingle v).takesFresh 16 1 ∧ (stocked jingle v).clip 7 = v)
    ∧ ((stocked jingle (readyClip 0)).clip 8).state = .free
    ∧ (∃ v : Clip, v ≠ Clip.freed ∧ v.state = .reserved)
    ∧ (∃ v : Clip, v ≠ Clip.freed ∧ v.state = .filling ∧ v.filler ≠ some .management)
    ∧ (∃ v : Clip, v ≠ Clip.freed ∧ v.state = .filling ∧ v.filler = some .management)
    ∧ (readyClip 0 ≠ Clip.freed ∧ (readyClip 0).state = .ready ∧ (readyClip 0).uses = 0)
    ∧ (readyClip 1 ≠ Clip.freed ∧ (readyClip 1).state = .ready ∧ (readyClip 1).uses ≠ 0)
    ∧ ∃ v : Clip, v ≠ Clip.freed ∧ v.state = .doomed :=
  ⟨fun v h => ⟨stocked_canonical v h, fresh rfl rfl rfl 16 1, rfl⟩, by decide +kernel,
    ⟨{ readyClip 0 with state := .reserved }, by decide, rfl⟩,
    ⟨{ readyClip 0 with state := .filling, filler := some (.unit 0) }, by decide, rfl, by decide⟩,
    ⟨{ readyClip 0 with state := .filling, filler := some .management }, by decide, rfl, rfl⟩,
    by decide, by decide, { readyClip 1 with state := .doomed }, by decide, rfl⟩

theorem witness_ReadClipReturnsTheEntry : locked.takesOrders ∧ ([] : List Payload).length ≠ 1 ∧ 511 < (512 : Payload).toNat
    ∧ ([511] : List Payload) = toPayloads [(511 : Fin 512).val] := ⟨⟨rfl, by decide⟩, by decide, by decide, by decide⟩

theorem witness_CaptureStartsOrArms : locked.canonical ∧ locked.takesFresh 18 1
    ∧ (capturing .armed (some 900) .reserved 300).canonical ∧ (capturing .armed (some 900) .reserved 300).takesFresh 18 1
    ∧ ([] : List Payload).length ≠ 5
    ∧ (∀ b ∈ ([[2, 0, 0, 1, 0], [0, 512, 0, 1, 0], [0, 0, 16, 1, 0], [0, 0, 0, 0, 0], [0, 0, 0, 1048577, 0], [0, 0, 0, 1, 4096]] :
          List (List Payload)),
        b.length = 5 ∧ (1 < (b.getD 0 0).toNat ∨ 511 < (b.getD 1 0).toNat ∨ 15 < (b.getD 2 0).toNat ∨ (b.getD 3 0).toNat = 0
          ∨ 1048576 < (b.getD 3 0).toNat ∨ 4095 < (b.getD 4 0).toNat))
    ∧ ([1, 511, 15, 1048576, 4095] : List Payload)
      = toPayloads [(1 : Fin 2).val, (511 : Fin 512).val, (15 : Fin 16).val, 1048576, (4095 : Fin 4096).val]
    ∧ (locked.unit 1).state = .idle ∧ (locked.clip 511).state = .free
    ∧ ((capturing .armed (some 900) .reserved 300).unit 0).state ≠ .idle
    ∧ ((capturing .armed (some 900) .reserved 300).clip 9).state ≠ .free :=
  ⟨⟨rfl, rfl, rfl, by decide +kernel⟩, locked_fresh 18 1, capturing_sound.canonical,
    fresh rfl rfl rfl 18 1, by decide, by decide, by decide, by decide +kernel⟩

theorem witness_CancelCaptureFreesTheClip : (capturing .armed (some 900) .reserved 300).canonical
    ∧ (capturing .armed (some 900) .reserved 300).captureSound ∧ (capturing .armed (some 900) .reserved 300).takesFresh 19 1
    ∧ ([] : List Payload).length ≠ 1 ∧ 1 < (2 : Payload).toNat ∧ ([1] : List Payload) = toPayloads [(1 : Fin 2).val]
    ∧ ((capturing .armed (some 900) .reserved 300).unit 1).state = .idle
    ∧ ((capturing .armed (some 900) .reserved 300).unit 0).clip = some 9 :=
  ⟨capturing_sound.canonical, capturing_sound.capture, fresh rfl rfl rfl 19 1, by decide, by decide, by decide,
    by decide +kernel⟩

theorem witness_LoadAndReadLaw : locked.takesFresh 20 1 ∧ locked.takesOrders
    ∧ (List.replicate 63 (0 : Payload)).length ≠ 64 ∧ (List.replicate 64 (65537 : Payload)).length = 64
    ∧ (∃ w ∈ List.replicate 64 (65537 : Payload), 65536 < w.toNat) ∧ (List.replicate 64 (65536 : Payload)).length = 64
    ∧ ∀ w ∈ List.replicate 64 (65536 : Payload), w.toNat ≤ 65536 :=
  ⟨locked_fresh 20 1, ⟨rfl, by decide⟩, by decide, by decide,
    ⟨65537, List.mem_replicate.mpr ⟨by decide, rfl⟩, by decide⟩, by decide,
    fun w hw => by rw [List.eq_of_mem_replicate hw]; decide⟩

/-! The receiver -/

/-- No bits; a whole frame that is found at once; a station strapped 31; and the other lock states. -/
theorem witness_SearchAndConfirmFrames : (State.reset.lock = .search ∧ State.reset.waitingBits ≤ 447
      ∧ State.reset.receiving = true)
    ∧ (State.reset.heldBits ++ []).length = 0
    ∧ ((State.reset.heldBits ++ lineBits (frameWith 0)).length = 0 + 448
      ∧ (frameAt (State.reset.heldBits ++ lineBits (frameWith 0)) 0).good = true)
    ∧ (∃ s : State, s.lock = .search ∧ s.waitingBits ≤ 447 ∧ ¬s.receiving = true)
    ∧ (frameOfLine (frameWith 0)).good = true ∧ ¬(frameOfLine 77).good = true ∧ locked.lock = .locked
    ∧ (∃ s : State, s.lock = .confirm ∧ s.confirm ≠ 7) ∧ ∃ s : State, s.lock = .confirm ∧ s.confirm = 7 :=
  ⟨⟨rfl, by decide, by decide⟩, by decide +kernel, by decide +kernel,
    ⟨{ State.reset with station := 31 }, rfl, by decide, by decide⟩, by decide +kernel, by decide +kernel, rfl,
    ⟨{ State.reset with lock := .confirm, confirm := 6 }, rfl, by decide⟩,
    { State.reset with lock := .confirm, confirm := 7 }, rfl, rfl⟩

theorem witness_EightGoodFramesLock : State.reset.lock = .search ∧ State.reset.receiving = true
    ∧ State.reset.waitingBits ≤ 447 ∧ (State.reset.heldBits ++ lineBits (frameWith 0)).length = 0 + 448
    ∧ (frameAt (State.reset.heldBits ++ lineBits (frameWith 0)) 0).good = true
    ∧ (∀ line ∈ List.replicate 7 (frameWith 0), (frameOfLine line).good = true)
    ∧ (List.replicate 7 (frameWith 0)).length = 7 :=
  ⟨rfl, by decide, by decide, by decide +kernel, by decide +kernel, fun line h => by
    rw [List.eq_of_mem_replicate h]
    decide +kernel, by decide⟩

/-- A good frame, and a bad one after one bad frame. -/
theorem witness_LockedArrivalCountsAndArbitrates : locked.lock = .locked ∧ locked.reportsBounded
    ∧ ((frameOfLine (frameWith 0)).good = true ∨ locked.badRun < 2)
    ∧ ((frameOfLine 77).good = true ∨ ({ locked with badRun := 1 } : State).badRun < 2) :=
  ⟨rfl, ⟨by decide, by decide, by decide, rfl⟩, .inl (by decide +kernel), .inr (by decide)⟩

/-- The hypotheses on the lanes: no waiting order, and a frame to go. -/
theorem running_lanes_go_on (i : Fin 8) (r : Record) (h : ((running jingle id).lane i).copy = some r) :
    ((running jingle id).lane i).waiting = none ∧ ((running jingle id).lane i).k + 1 < ((running jingle id).lane i).total := by
  have hd : ∀ i, ((running jingle id).lane i).waiting = none
      ∧ (((running jingle id).lane i).copy.isSome = true
        → ((running jingle id).lane i).k + 1 < ((running jingle id).lane i).total) := by decide +kernel
  exact ⟨(hd i).1, (hd i).2 (by rw [h]; rfl)⟩

/-- A frame whose control word is the cue 301 to all stations. -/
def cueFrame : LineFrame := frameWith (controlWord .cue 0 (cuePayload 301 44))

/-- A good frame with the IDLE word, a good one with a cue that is mapped, with 0 to 16 triggers waiting, or awaited by an ARMED unit, and a bad one
after one bad frame. -/
theorem witness_ArrivalRunsTheSplices :
    (running jingle id).Sound ∧ (running jingle id).lock = .locked ∧ (running jingle id).assembly = none
      ∧ (∀ u, ((running jingle id).unit u).state ≠ .recording) ∧ (running jingle id).triggers = []
      ∧ (∀ i r, ((running jingle id).lane i).copy = some r → ((running jingle id).lane i).waiting = none
        ∧ ((running jingle id).lane i).k + 1 < ((running jingle id).lane i).total)
      ∧ (frameOfLine (frameWith 0)).good = true ∧ (¬(frameOfLine 77).good = true ∧ ({ locked with badRun := 1 } : State).badRun < 2)
      ∧ forOrderUnit 1 (frameOfLine (frameWith 0)).control = false
      ∧ actsOnCue 1 (frameOfLine (frameWith 0)).control = false
      ∧ ((frameOfLine cueFrame).good = true ∧ forOrderUnit 1 (frameOfLine cueFrame).control = false
        ∧ actsOnCue 1 (frameOfLine cueFrame).control = true)
      ∧ ({ locked with cueMap := [endCueEntry] } : State).heardCue (some (frameOfLine cueFrame).control) = [(301, 44)]
      ∧ (∃ s : State, s.Sound ∧ s.lock = .locked ∧ s.cueMap = [] ∧ (s.unit 0).state = .armed
        ∧ s.heardCue (some (frameOfLine cueFrame).control) = [(301, 44)])
      ∧ ∀ n ≤ 16, ∃ s : State, s.Sound ∧ s.cueMap = [endCueEntry] ∧ s.triggers.length = n
        ∧ (s.slotOutcome (s.frameCount + 1) (some (frameOfLine cueFrame).control)).2.2.1 = s.reports :=
  ⟨running_sound, rfl, rfl, by decide +kernel, rfl, running_lanes_go_on, by decide +kernel, by decide +kernel,
    by decide +kernel, by decide +kernel, by decide +kernel, by decide +kernel,
    ⟨capturing .armed (some 301) .reserved 300, sound_all_free (by decide +kernel)
      (by simp only [capturing, locked, State.reset, State.powerOn]) rfl, by decide +kernel⟩, fun n hn =>
    ⟨{ locked with cueMap := [endCueEntry], triggers := List.replicate n waitingEntry },
      sound_all_free (by
        have h : ∀ n < 17, soundCheck { locked with cueMap := [endCueEntry], triggers := List.replicate n waitingEntry } = true := by
          decide +kernel
        exact h n (Nat.lt_succ_of_le hn)) (by simp only [locked, State.reset, State.powerOn]) rfl,
      rfl, List.length_replicate, rfl⟩⟩

/-- No free block: the first `n` blocks in clip 7 and the others in clip 9, which unit 0 records. -/
def fullStore (n : Nat) : State :=
  { locked with
    freeBlocks := []
    clips := [(7, { state := .ready, length := 256 * n, chain := (List.range 4096).take n, uses := 0, filler := none, short := false }),
      (9, { state := .filling, length := 256 * (4096 - n), chain := (List.range 4096).drop n, uses := 0,
            filler := some (.unit 0), short := false })]
    units := (Vector.replicate 2 CaptureUnit.idle).set 0
      { state := .recording, clip := some 9, slot := some 14, wanted := 1000, cue := none, written := 256 * (4096 - n) } }

theorem fullStore_sound (n : Nat) (h : soundCheck (fullStore n) = true) : (fullStore n).Sound := by
  refine sound_of_check h (blocks_of_drop 4096 ?_ ?_)
  · rw [List.drop_of_length_le (by simp)]
    rfl
  · rw [List.take_of_length_le (by simp)]
    show (List.range 4096).take n ++ ((List.range 4096).drop n ++ []) = List.range 4096
    rw [List.append_nil, List.take_append_drop]

/-- An ARMED unit 0, one sample wanted, with two entries of its cue due at the next count. -/
def awaiting : State :=
  let due : TriggerEntry := { due := 1, admitted := 0, kind := .cue 900 }
  { capturing .armed (some 900) .reserved 1 with triggers := [due, due] }

/-- A received and a concealed frame; a unit RECORDING with a sample or two to go and one that its cue starts, room for the
block; and no free block, at the first sample and at sample 256. -/
theorem witness_ArrivalRecordsOneSample : (∀ wanted : Nat, wanted = 1 ∨ wanted = 2 → ∃ s : State, s.Sound ∧ s.lock = .locked
      ∧ (∀ i, s.lane i = Lane.idle) ∧ s.triggers = [] ∧ (∀ x, x ≠ 0 → s.unit x = CaptureUnit.idle)
      ∧ (s.unit 0).state = .recording ∧ (s.unit 0).clip = some 9 ∧ (s.unit 0).slot = some 14
      ∧ (s.unit 0).wanted = wanted ∧ (s.unit 0).written = 0 ∧ s.freeBlocks.length = 4096
      ∧ (frameOfLine (frameWith 0)).good = true ∧ forOrderUnit s.station (frameOfLine (frameWith 0)).control = false
      ∧ ¬(frameOfLine 77).good = true ∧ s.badRun < 2)
    ∧ (awaiting.Sound ∧ awaiting.lock = .locked ∧ (∀ i, awaiting.lane i = Lane.idle)
      ∧ (∀ x, x ≠ 0 → awaiting.unit x = CaptureUnit.idle) ∧ awaiting.cueMap = [] ∧ (awaiting.unit 0).state = .armed
      ∧ (awaiting.unit 0).clip = some 9 ∧ (awaiting.unit 0).slot = some 14 ∧ (awaiting.unit 0).wanted = 1
      ∧ awaiting.triggers.map (fun e => (e.fallsDue (awaiting.frameCount + 1), e.kind, e.kind == .cue 900))
        = [(true, .cue 900, true), (true, .cue 900, true)] ∧ (awaiting.unit 0).cue = some 900)
    ∧ ∀ n, n = 4096 ∨ n = 4095 → (fullStore n).Sound ∧ (fullStore n).lock = .locked ∧ (∀ i, (fullStore n).lane i = Lane.idle)
      ∧ (fullStore n).triggers = [] ∧ (∀ v, v ≠ 0 → (fullStore n).unit v = CaptureUnit.idle)
      ∧ ((fullStore n).unit 0).state = .recording ∧ ((fullStore n).unit 0).written = 256 * (4096 - n)
      ∧ (fullStore n).freeBlocks = [] ∧ (fullStore n).assembly = none
      ∧ actsOnCue (fullStore n).station (frameOfLine (frameWith 0)).control = false
      ∧ ((fullStore n).slotOutcome ((fullStore n).frameCount + 1) none).2.2.1 = (fullStore n).reports := by
  refine ⟨?_, ⟨sound_all_free (by decide +kernel) (by simp only [awaiting, capturing, locked, State.reset, State.powerOn]) rfl,
    by decide +kernel⟩, ?_⟩
  · rintro wanted (rfl | rfl)
    · exact ⟨capturing .recording none .filling 1, recording_sound 1 (by decide +kernel), by decide +kernel⟩
    · exact ⟨capturing .recording none .filling 2, recording_sound 2 (by decide +kernel), by decide +kernel⟩
  · intro n hn
    refine ⟨fullStore_sound n (by rcases hn with rfl | rfl <;> decide +kernel), rfl, fun i => ?_, rfl, fun v hv => ?_, rfl, rfl, rfl,
      rfl, ?_, rfl⟩
    · have h : ∀ i, locked.lane i = Lane.idle := by decide +kernel
      rw [← h i]
      unfold State.lane fullStore
      rfl
    · have h : ∀ v : Fin 2, v ≠ 0 → v = 1 := by decide
      rw [h v hv]
      rfl
    · have h : actsOnCue 1 (frameOfLine (frameWith 0)).control = false := by decide +kernel
      exact h

theorem witness_ThirdBadFrameLosesTheLink : ∃ s : State, s.Sound ∧ s.lock = .locked ∧ ¬(frameOfLine 77).good = true
    ∧ s.badRun = 2 :=
  ⟨{ running jingle id with badRun := 2 }, sound_one_claimed (by decide +kernel) (by simp only [running, stocked]) (by decide +kernel), rfl,
    by decide +kernel, rfl⟩

/-! Fades, the mix and the splice -/

/-- The first frame of a splice and its last, with index 63 and 0 there. -/
theorem witness_ReleaseFallsSteadily : jingle.voices ≠ [] ∧ 1 ≤ jingle.rOut.val ∧ 0 < 80 ∧ 79 < 80
    ∧ fadeIndex { jingle with rIn := 0 } 80 0 = 63 ∧ fadeIndex jingle 80 79 = 0 := by decide +kernel

/-- What an arrival meets at lane 0 of a sound station whose other lanes are IDLE: `k` frames played, a waiting order, a
pending trigger, a link; with the end cue mapped and `n` triggers waiting. -/
def arriving (r : Record) (k : Nat) (w : Option WaitingOrder) (p : Option PendingTrigger) (n : Nat) : State :=
  { running r (fun l => { l with k := k, waiting := w, pending := p }) with
    cueMap := [endCueEntry], triggers := List.replicate n waitingEntry }

/-- A fall begun by RELEASE, a RELEASE with fade-out rate 0, a RELEASE and an ABORT at the natural end with 15 and 16 triggers
waiting, a link to an EMPTY record and a pending trigger of a LOADED one; a frame with the IDLE word, one with the cue, and a
bad one. -/
theorem witness_SpliceRunsItsTotal : (((running jingle id).lane 0).phase ≠ .idle ∧ ((running jingle id).lane 0).waiting = none
      ∧ ((running jingle id).lane 0).k + 79 < ((running jingle id).lane 0).total
      ∧ ((running jingle id).lane 0).k + 79 + 1 = ((running jingle id).lane 0).total)
    ∧ ((arriving jingle 9 (some .release) none 0).Sound ∧ (arriving { jingle with rOut := 0 } 9 (some .release) none 0).Sound
      ∧ (arriving jingle 79 (some .release) none 15).Sound ∧ (arriving jingle 79 (some .abort) none 16).Sound
      ∧ (arriving { jingle with next := some 6 } 79 none none 15).Sound
      ∧ (arriving jingle 79 none (some { record := 5, kind := .queued }) 0).Sound)
    ∧ (∀ r k w p, ∀ n ≤ 16, (arriving r k w p n).lock = .locked ∧ (arriving r k w p n).assembly = none
      ∧ (∀ u, ((arriving r k w p n).unit u).state ≠ .recording)
      ∧ (∀ e ∈ (arriving r k w p n).triggers, e.fallsDue ((arriving r k w p n).frameCount + 1) = false)
      ∧ ((arriving r k w p n).lane 0).copy = some r ∧ (∀ j, j ≠ 0 → (arriving r k w p n).lane j = Lane.idle))
    ∧ ((arriving { jingle with next := some 6 } 79 none none 15).record 6 = none
      ∧ (loadTest (arriving jingle 79 none (some { record := 5, kind := .queued }) 0) 0 5).toOption = some jingle)
    ∧ ((frameOfLine (frameWith 0)).good = true ∧ (frameOfLine cueFrame).good = true ∧ ¬(frameOfLine 77).good = true
      ∧ forOrderUnit 1 (frameOfLine (frameWith 0)).control = false ∧ forOrderUnit 1 (frameOfLine cueFrame).control = false)
    ∧ (∀ word, ((arriving jingle 79 (some .release) none 15).slotOutcome 1 word).2.2.1 = []) := by
  have claimed : ∀ s : State, s.freeBlocks = (List.range 4096).drop 1 → soundCheck s = true →
      (s.clips.flatMap fun p => p.2.chain) = (List.range 4096).take 1 → s.Sound := fun s hf h hc => sound_one_claimed h hf hc
  refine ⟨by decide +kernel, ⟨?_, ?_, ?_, ?_, ?_, ?_⟩, fun r k w p n hn => ?_, by decide +kernel, by decide +kernel, ?_⟩
  iterate 6 exact claimed _ (by simp only [arriving, running, stocked]) (by decide +kernel) (by decide +kernel)
  · refine ⟨rfl, rfl, ?_, ?_, rfl, ?_⟩
    · intro u
      have h : ∀ u, (locked.unit u).state ≠ .recording := by decide +kernel
      exact h u
    · have h : waitingEntry.fallsDue (locked.frameCount + 1) = false := by decide +kernel
      intro e he
      rw [List.eq_of_mem_replicate he]
      exact h
    · intro j hj
      have hz : (0 : Nat) ≠ j.val := fun h => hj (Fin.ext h.symm)
      exact (Vector.getElem_set_ne (by decide) j.isLt hz).trans (Vector.getElem_replicate _)
  · intro word
    cases word with
    | none => rfl
    | some w => simp only [State.slotOutcome]; split <;> rfl

/-- An EMPTY record; a clip that is FREE; a start offset at the clip's length; slot 3 owned by lane 0; none of these. -/
theorem witness_LoadTestsInOrder : locked.tableSound ∧ locked.record 5 = none
    ∧ (∃ s : State, s.tableSound ∧ s.record 5 = some jingle ∧ ∃ v ∈ jingle.voices, (s.clip v.clip.val).state ≠ .ready)
    ∧ (∃ (s : State) (r : Record), s.tableSound ∧ s.record 5 = some r
      ∧ (¬∃ v ∈ r.voices, (s.clip v.clip.val).state ≠ .ready) ∧ ∃ v ∈ r.voices, (s.clip v.clip.val).length ≤ r.start)
    ∧ (∃ s : State, s.tableSound ∧ s.record 5 = some jingle
      ∧ (¬∃ v ∈ jingle.voices, (s.clip v.clip.val).state ≠ .ready)
      ∧ (¬∃ v ∈ jingle.voices, (s.clip v.clip.val).length ≤ jingle.start)
      ∧ ∃ v ∈ jingle.voices, ∃ owner, s.slots[v.slot] = some owner ∧ owner ≠ 1)
    ∧ ∃ s : State, s.tableSound ∧ s.record 5 = some jingle
      ∧ (¬∃ v ∈ jingle.voices, (s.clip v.clip.val).state ≠ .ready)
      ∧ (¬∃ v ∈ jingle.voices, (s.clip v.clip.val).length ≤ jingle.start)
      ∧ ¬∃ v ∈ jingle.voices, ∃ owner, s.slots[v.slot] = some owner ∧ owner ≠ 1 := by
  have ht : ∀ (r : Record) (v : Clip), recordCheck r = true → (stocked r v).tableSound := fun r v h p hp => by
    rw [List.mem_singleton.mp hp]
    exact record_sound_of_check h
  refine ⟨fun p hp => (by cases hp), rfl, ⟨stocked jingle Clip.freed, ht _ _ (by decide), by decide +kernel⟩,
    ⟨stocked { jingle with start := 100 } (readyClip 0), { jingle with start := 100 }, ht _ _ (by decide), by decide +kernel⟩,
    ⟨running jingle id, running_sound.table, by decide +kernel⟩,
    stocked jingle (readyClip 0), stocked_sound.table, by decide +kernel⟩

/-! The events of the frame work -/

theorem witness_TimeoutDiscardsTheOrder : locked.lock = .locked ∧ locked.assembly = none
    ∧ ∃ (s : State) (a : Assembly), s.lock = .locked ∧ s.assembly = some a ∧ s.frameCount = a.start + 2047
      ∧ s.frameCount + 1 = a.start + 2048 ∧ (frameOfLine (frameWith 0)).good = true
      ∧ forOrderUnit s.station (frameOfLine (frameWith 0)).control = false
      ∧ (s.slotOutcome (s.frameCount + 1) (some (frameOfLine (frameWith 0)).control)).2.2.1 = s.reports :=
  ⟨rfl, rfl, { locked with
    frameCount := 2047
    assembly := some { address := 1, code := 9, seq := 37, declared := 4, body := [], sum := 0, start := 0 } }, _, rfl, rfl,
    rfl, by decide +kernel⟩

/-- A RELEASE waiting at a splice that rises, at one that is already cut, and at one with r_out 0 and an end cue. -/
theorem witness_ApplyReleaseStartsTheFall :
    ((running jingle id).Sound ∧ ((running jingle id).lane 0).waiting ≠ some .release)
    ∧ (∃ s : State, s.Sound ∧ s.lock = .locked ∧ (s.lane 0).copy = some jingle ∧ (s.lane 0).waiting = some .release
      ∧ (s.lane 0).mark = .unmarked ∧ jingle.voices ≠ [] ∧ jingle.rOut.val ≠ 0)
    ∧ (∃ s : State, s.Sound ∧ s.lock = .locked ∧ (s.lane 0).copy = some jingle ∧ (s.lane 0).waiting = some .release
      ∧ (s.lane 0).mark ≠ .unmarked)
    ∧ ∃ (s : State) (r : Record), s.Sound ∧ s.lock = .locked ∧ (s.lane 0).copy = some r
      ∧ (s.lane 0).waiting = some .release ∧ (s.lane 0).mark = .unmarked ∧ r.rOut.val = 0
      ∧ r.endCue.toList = [{ cue := 301, offset := 44, forward := true }] :=
  ⟨⟨running_sound, by decide +kernel⟩,
    ⟨running jingle fun l => { l with k := 10, waiting := some .release },
      sound_one_claimed (by decide +kernel) (by simp only [running, stocked]) (by decide +kernel), rfl, by decide +kernel, by decide +kernel,
      by decide +kernel, by decide, by decide⟩,
    ⟨running jingle fun l => { l with k := 10, mark := .cut, waiting := some .release },
      sound_one_claimed (by decide +kernel) (by simp only [running, stocked]) (by decide +kernel), rfl, by decide +kernel⟩,
    running { jingle with rOut := 0 } fun l => { l with k := 10, waiting := some .release },
    { jingle with rOut := 0 }, sound_one_claimed (by decide +kernel) (by simp only [running, stocked]) (by decide +kernel), rfl,
    by decide +kernel, by decide +kernel, by decide +kernel, by decide, rfl⟩

theorem witness_ApplyAbortEndsTheSplice : ((running jingle id).Sound ∧ ((running jingle id).lane 0).waiting ≠ some .abort)
    ∧ ∃ s : State, s.Sound ∧ s.lock = .locked ∧ (s.lane 0).copy = some jingle ∧ (s.lane 0).waiting = some .abort :=
  ⟨⟨running_sound, by decide +kernel⟩, running jingle fun l => { l with k := 10, waiting := some .abort },
    sound_one_claimed (by decide +kernel) (by simp only [running, stocked]) (by decide +kernel), rfl, by decide +kernel⟩

/-- A splice one frame before its total, with the Cue Map, the Trigger Queue and the Cue Out list as given. -/
def ending (r : Record) (mark : EndMark) (map : List CueMapEntry) (queue : List TriggerEntry) (out : List CueOutEntry) : State :=
  { running r fun l => { l with k := 79, mark := mark } with cueMap := map, triggers := queue, cueOut := out }

/-- The end cue unwanted and forwarded into room; under mark CUT; wanted with room and forwarded into a full list; wanted with
the queue full and not forwarded. -/
theorem witness_RecordEndReleasesAndRaises :
    (locked.lane 0).k + 1 ≠ (locked.lane 0).total
    ∧ (∃ s : State, s.Sound ∧ s.lock = .locked ∧ (s.lane 0).copy = some jingle ∧ (s.lane 0).k + 1 = (s.lane 0).total
      ∧ (s.lane 0).pending = none ∧ (s.lane 0).mark = .unmarked ∧ jingle.next = none ∧ s.cueMap = [] ∧ s.cueOut = []
      ∧ ∀ u, (s.unit u).state ≠ .armed)
    ∧ (∃ s : State, s.Sound ∧ s.lock = .locked ∧ (s.lane 0).copy = some jingle ∧ (s.lane 0).k + 1 = (s.lane 0).total
      ∧ (s.lane 0).pending = none ∧ (s.lane 0).mark = .cut)
    ∧ (∃ s : State, s.Sound ∧ s.lock = .locked ∧ (s.lane 0).copy = some jingle ∧ (s.lane 0).k + 1 = (s.lane 0).total
      ∧ (s.lane 0).pending = none ∧ (s.lane 0).mark = .released ∧ 301 ∈ s.cueMap.map CueMapEntry.cue
      ∧ s.triggers.length = 15 ∧ s.cueOut.length = 4)
    ∧ ∃ (s : State) (r : Record), s.Sound ∧ s.lock = .locked ∧ (s.lane 0).copy = some r
      ∧ (s.lane 0).k + 1 = (s.lane 0).total ∧ (s.lane 0).pending = none ∧ (s.lane 0).mark = .released
      ∧ r.endCue = some { cue := 301, offset := 44, forward := false } ∧ 301 ∈ s.cueMap.map CueMapEntry.cue
      ∧ s.triggers.length = 16 :=
  ⟨by decide +kernel,
    ⟨ending jingle .unmarked [] [] [], sound_one_claimed (by decide +kernel) (by simp only [ending, running, stocked]) (by decide +kernel), rfl, by decide +kernel,
      by decide +kernel, by decide +kernel, by decide +kernel, rfl, rfl, rfl, by decide +kernel⟩,
    ⟨ending jingle .cut [] [] [], sound_one_claimed (by decide +kernel) (by simp only [ending, running, stocked]) (by decide +kernel), rfl, by decide +kernel⟩,
    ⟨ending jingle .released [endCueEntry] (List.replicate 15 waitingEntry) (List.replicate 4 { cue := 1, due := 9 }),
      sound_one_claimed (by decide +kernel) (by simp only [ending, running, stocked]) (by decide +kernel), rfl, by decide +kernel⟩,
    ending { jingle with endCue := some { cue := 301, offset := 44, forward := false } } .released [endCueEntry]
      (List.replicate 16 waitingEntry) [], _, sound_one_claimed (by decide +kernel) (by simp only [ending, running, stocked]) (by decide +kernel), rfl, rfl,
    by decide +kernel, by decide +kernel, by decide +kernel, rfl, by decide +kernel⟩

/-- A record with a voice, an end cue and report on end before its total: its link names an EMPTY record; its pending trigger
names a LOADED one of the same slot and clip; the clip DOOMED, the last use the record's own; and a cut pause record. -/
theorem witness_RecordEndFollowsTheLink :
    (∃ (s : State) (r : Record), s.Sound ∧ s.lock = .locked ∧ (s.lane 0).copy = some r ∧ r.voices ≠ [] ∧ r.reportEnd = true
      ∧ r.endCue ≠ none ∧ (s.lane 0).k + 1 = (s.lane 0).total ∧ (s.lane 0).pending = none ∧ (s.lane 0).mark = .unmarked
      ∧ r.next = some 6 ∧ s.record 6 = none)
    ∧ (∃ s : State, s.Sound ∧ s.lock = .locked ∧ (s.lane 0).copy = some jingle ∧ (s.lane 0).k + 1 = (s.lane 0).total
      ∧ (s.lane 0).pending.map PendingTrigger.record = some 5 ∧ s.record 5 = some jingle
      ∧ (loadTest s 0 5).toOption = some jingle
      ∧ ∀ v ∈ jingle.voices, (s.clip v.clip.val).state = .ready ∧ jingle.start < (s.clip v.clip.val).length
        ∧ (s.slots[v.slot] = none ∨ v.slot ∈ jingle.voices.map Voice.slot))
    ∧ (∃ s : State, s.Sound ∧ s.lock = .locked ∧ (s.lane 0).copy = some jingle ∧ (s.lane 0).k + 1 = (s.lane 0).total
      ∧ (s.lane 0).pending.map PendingTrigger.record = some 5 ∧ s.record 5 = some jingle
      ∧ (s.clip 7).uses = 1 ∧ ∃ v ∈ jingle.voices, (s.clip v.clip.val).state = .doomed)
    ∧ ∃ s : State, s.Sound ∧ s.lock = .locked ∧ (s.lane 0).copy = some pause ∧ (s.lane 0).k + 1 = (s.lane 0).total
      ∧ (s.lane 0).pending.map PendingTrigger.record = some 5 ∧ (s.lane 0).mark = .cut ∧ s.record 5 = some pause :=
  ⟨⟨running { jingle with next := some 6 } fun l => { l with k := 79 }, { jingle with next := some 6 },
      sound_one_claimed (by decide +kernel) (by simp only [running, stocked]) (by decide +kernel), rfl, by decide +kernel,
      nofun, rfl, nofun, by decide +kernel, by decide +kernel, by decide +kernel, rfl, by decide +kernel⟩,
    ⟨running jingle fun l => { l with k := 79, pending := some { record := 5, kind := .queued } },
      sound_one_claimed (by decide +kernel) (by simp only [running, stocked]) (by decide +kernel), rfl, by decide +kernel⟩,
    ⟨{ running jingle (fun l => { l with k := 79, pending := some { record := 5, kind := .queued } }) with
        clips := [(7, { readyClip 1 with state := .doomed })] },
      sound_one_claimed (by decide +kernel) (by simp only [running, stocked]) (by decide +kernel), rfl, by decide +kernel⟩,
    running pause fun l => { l with k := 79, mark := .cut, pending := some { record := 5, kind := .cut } },
    sound_one_claimed (by decide +kernel) (by simp only [running, stocked]) (by decide +kernel), rfl, by decide +kernel⟩

/-- An entry due at the next count. -/
def dueEntry (kind : TriggerKind) : TriggerEntry := { due := 1, admitted := 0, kind := kind }

/-- The hypotheses on the queue: one entry, due at count 1. -/
theorem dueEntry_due (kind : TriggerKind) : (dueEntry kind).fallsDue (locked.frameCount + 1) = true := by
  have h : laterThan (locked.frameCount + 1) 0 = true ∧ notEarlier (locked.frameCount + 1) 1 = true := by decide +kernel
  rw [TriggerEntry.fallsDue, Bool.and_eq_true]
  exact h

/-- A TAKE for the IDLE lane 2, of an EMPTY and of a LOADED record, and for the busy lane 0 with no and with a pending
trigger; a mapped cue; a CUT of a record with r_out 0 and of a pause record; and two TAKEs of records that name slot 3, the one
of the higher lane first in the queue. -/
theorem witness_DueTriggerReachesItsLane :
    (∃ s : State, s.Sound ∧ s.lock = .locked ∧ s.triggers = [dueEntry (.take 2 6 .queue)] ∧ (s.lane 2).phase = .idle
      ∧ s.record 6 = none)
    ∧ (∃ s : State, s.Sound ∧ s.lock = .locked ∧ s.triggers = [dueEntry (.take 2 5 .queue)] ∧ (s.lane 2).phase = .idle
      ∧ (loadTest s 2 5).toOption = some jingle)
    ∧ (∃ s : State, s.Sound ∧ s.lock = .locked ∧ s.triggers = [dueEntry (.take 0 5 .cut)] ∧ (s.lane 0).phase ≠ .idle
      ∧ (s.lane 0).pending = none ∧ (s.lane 0).copy = some jingle ∧ jingle.voices ≠ [] ∧ jingle.rOut.val ≠ 0)
    ∧ (∃ s : State, s.Sound ∧ s.lock = .locked ∧ s.triggers = [dueEntry (.take 0 5 .queue)] ∧ (s.lane 0).phase ≠ .idle
      ∧ (s.lane 0).pending ≠ none ∧ (s.lane 0).mark ≠ .unmarked)
    ∧ (∃ s : State, s.Sound ∧ s.lock = .locked ∧ s.triggers = [dueEntry (.cue 301)] ∧ endCueEntry ∈ s.cueMap
      ∧ ∀ u, ¬((s.unit u).state = .armed ∧ (s.unit u).cue = some 301))
    ∧ (∃ (s : State) (r : Record), s.Sound ∧ s.lock = .locked ∧ s.triggers = [dueEntry (.take 0 5 .cut)]
      ∧ (s.lane 0).copy = some r ∧ (s.lane 0).mark = .unmarked ∧ r.rOut.val = 0 ∧ (loadTest s 0 5).toOption = some r)
    ∧ (∃ s : State, s.Sound ∧ s.lock = .locked ∧ s.triggers = [dueEntry (.take 0 6 .cut)]
      ∧ (s.lane 0).copy = some pause ∧ (s.lane 0).mark = .unmarked ∧ pause.voices = [] ∧ s.record 6 = none)
    ∧ ∃ s : State, s.Sound ∧ s.lock = .locked ∧ (∀ x, s.lane x = Lane.idle) ∧ (∀ u, s.unit u = CaptureUnit.idle)
      ∧ s.assembly = none ∧ s.triggers = [dueEntry (.take 2 6 .queue), dueEntry (.take 1 5 .queue)]
      ∧ (loadTest s 1 5).toOption = some jingle ∧ (loadTest s 2 6).toOption = some jingle
      ∧ (frameOfLine (frameWith 0)).good = true ∧ forOrderUnit s.station (frameOfLine (frameWith 0)).control = false
      ∧ actsOnCue s.station (frameOfLine (frameWith 0)).control = false
      ∧ (s.slotOutcome (s.frameCount + 1) (some (frameOfLine (frameWith 0)).control)).2.2.1 = s.reports :=
  ⟨⟨{ stocked jingle (readyClip 0) with triggers := [dueEntry (.take 2 6 .queue)] },
      sound_one_claimed (by decide +kernel) (by simp only [stocked]) (by decide +kernel), rfl, rfl, by decide +kernel⟩,
    ⟨{ stocked jingle (readyClip 0) with triggers := [dueEntry (.take 2 5 .queue)] },
      sound_one_claimed (by decide +kernel) (by simp only [stocked]) (by decide +kernel), rfl, rfl, by decide +kernel⟩,
    ⟨{ running jingle id with triggers := [dueEntry (.take 0 5 .cut)] },
      sound_one_claimed (by decide +kernel) (by simp only [running, stocked]) (by decide +kernel), rfl, rfl, by decide +kernel, by decide +kernel,
      by decide +kernel, by decide, by decide⟩,
    ⟨{ running jingle (fun l => { l with mark := .cut, pending := some { record := 5, kind := .cut } }) with
        triggers := [dueEntry (.take 0 5 .queue)] },
      sound_one_claimed (by decide +kernel) (by simp only [running, stocked]) (by decide +kernel), rfl, rfl, by decide +kernel⟩,
    ⟨{ stocked jingle (readyClip 0) with triggers := [dueEntry (.cue 301)], cueMap := [endCueEntry] },
      sound_one_claimed (by decide +kernel) (by simp only [stocked]) (by decide +kernel), rfl, rfl, by decide, by decide +kernel⟩,
    ⟨{ running { jingle with rOut := 0 } id with triggers := [dueEntry (.take 0 5 .cut)] }, { jingle with rOut := 0 },
      sound_one_claimed (by decide +kernel) (by simp only [running, stocked]) (by decide +kernel), rfl, rfl, by decide +kernel,
      by decide +kernel, rfl, by decide +kernel⟩,
    ⟨{ running pause id with triggers := [dueEntry (.take 0 6 .cut)] },
      sound_one_claimed (by decide +kernel) (by simp only [running, stocked]) (by decide +kernel), rfl, rfl, by decide +kernel,
      by decide +kernel, rfl, by decide +kernel⟩,
    { stocked jingle (readyClip 0) with
      table := [(5, jingle), (6, jingle)], triggers := [dueEntry (.take 2 6 .queue), dueEntry (.take 1 5 .queue)] },
    sound_one_claimed (by decide +kernel) (by simp only [stocked]) (by decide +kernel), rfl, by decide +kernel,
    by decide +kernel, rfl, rfl, by decide +kernel⟩

/-- Unit 0 awaits the cue, unit 1 does not; the same with the cue mapped to lane 2; and a cue nothing wants. -/
theorem witness_DueCueStartsArmedUnits :
    (∃ s : State, s.Sound ∧ s.lock = .locked ∧ s.triggers = [dueEntry (.cue 900)] ∧ 900 ∉ s.cueMap.map CueMapEntry.cue
      ∧ ((s.unit 0).state = .armed ∧ (s.unit 0).cue = some 900) ∧ ¬((s.unit 1).state = .armed ∧ (s.unit 1).cue = some 900))
    ∧ (∃ s : State, s.Sound ∧ s.lock = .locked ∧ s.triggers = [dueEntry (.cue 900)]
      ∧ s.cueMap = [{ cue := 900, lane := 2, record := 5, policy := .queue }]
      ∧ ((s.unit 0).state = .armed ∧ (s.unit 0).cue = some 900) ∧ s.record 5 ≠ none)
    ∧ ∃ s : State, s.Sound ∧ s.lock = .locked ∧ s.triggers = [dueEntry (.cue 901)] ∧ 901 ∉ s.cueMap.map CueMapEntry.cue
      ∧ ∀ u, ¬((s.unit u).state = .armed ∧ (s.unit u).cue = some 901) :=
  ⟨⟨{ capturing .armed (some 900) .reserved 300 with triggers := [dueEntry (.cue 900)] },
      sound_all_free (by decide +kernel) (by simp only [capturing, locked, State.reset, State.powerOn]) (by decide +kernel),
      by decide +kernel⟩,
    ⟨{ capturing .armed (some 900) .reserved 300 with
        triggers := [dueEntry (.cue 900)], table := [(5, { jingle with voices := [] })]
        cueMap := [{ cue := 900, lane := 2, record := 5, policy := .queue }] },
      sound_all_free (by decide +kernel) (by simp only [capturing, locked, State.reset, State.powerOn]) (by decide +kernel),
      by decide +kernel⟩,
    { capturing .armed (some 900) .reserved 300 with triggers := [dueEntry (.cue 901)] },
    sound_all_free (by decide +kernel) (by simp only [capturing, locked, State.reset, State.powerOn]) (by decide +kernel),
    by decide +kernel⟩

theorem witness_CaptureCompletesAtItsLength : (locked.unit 0).state ≠ .recording
    ∧ ∃ s : State, s.Sound ∧ s.lock = .locked ∧ (s.unit 0).state = .recording ∧ (s.unit 0).clip = some 9
      ∧ (s.unit 0).slot = some 14 ∧ (s.unit 0).written + 1 = (s.unit 0).wanted ∧ (s.unit 0).written % 256 = 0
      ∧ s.freeBlocks.length = 4096 :=
  ⟨by decide +kernel, capturing .recording none .filling 1, recording_sound 1 (by decide +kernel), rfl, by decide +kernel⟩

/-- A waiting Cue Out entry, and a report at its first and at its last word, at the arrival of a frame with the IDLE word, of
one with a word that travels on, and of a bad one that is concealed or ends the lock. -/
theorem witness_StationWordsLeaveInFreeSlots :
    ((frameOfLine (frameWith 0)).good = true ∧ travelsOn 1 (frameOfLine (frameWith 0)).control = false)
    ∧ ((frameOfLine cueFrame).good = true ∧ travelsOn 1 (frameOfLine cueFrame).control = true)
    ∧ (¬(frameOfLine 77).good = true ∧ locked.badRun < 2 ∧ ¬({ locked with badRun := 2 } : State).badRun < 2)
    ∧ (locked.lock = .locked ∧ locked.reportsBounded ∧ locked.cueOut = [] ∧ locked.reports = [])
    ∧ (∃ s : State, s.lock = .locked ∧ s.reportsBounded ∧ s.station = 1 ∧ s.assembly = none
      ∧ s.cueOut = { cue := 301, due := 1050 } :: [])
    ∧ ∀ position ≤ 3, ∃ s : State, s.lock = .locked ∧ s.reportsBounded ∧ s.station = 1 ∧ s.cueOut = [] ∧ s.wordPos = position
      ∧ s.reports = { code := 0, seq := 37, body := [9, 0] } :: [] :=
  ⟨by decide +kernel, by decide +kernel, by decide +kernel, ⟨rfl, ⟨by decide, by decide, by decide, rfl⟩, rfl, rfl⟩,
    ⟨{ locked with cueOut := [{ cue := 301, due := 1050 }] }, rfl, ⟨by decide, by decide, by decide, rfl⟩, rfl, rfl, rfl⟩,
    fun position hp =>
      ⟨{ locked with wordPos := position, reports := [{ code := 0, seq := 37, body := [9, 0] }] },
        rfl, ⟨Nat.le_of_ble_eq_true rfl, Nat.le_of_ble_eq_true rfl, Nat.zero_le _, hp⟩, rfl, rfl, rfl, rfl⟩⟩

/-- A good frame and a concealed one at a station with a splice running. -/
theorem witness_EventSequenceHasNoGap : (running jingle id).Sound ∧ (running jingle id).lock = .locked
    ∧ (frameOfLine (frameWith 0)).good = true ∧ ¬(frameOfLine 77).good = true ∧ (running jingle id).badRun < 2 :=
  ⟨running_sound, rfl, by decide +kernel, by decide +kernel, by decide⟩

theorem witness_EntryFallsDueOnItsFrame : 0 < 2147483648 ∧ 4095 < 2147483648 ∧ 2147483647 < 2147483648 := by decide

/-- A state with some event reports in its queue and some discards. -/
def withEvents (n lost : Nat) : State :=
  { locked with reports := List.replicate n { code := 10, seq := 0, body := [1] }, lost := lost }

/-- Room and no discards; no room; discards and room for two; discards and room for LOST EVENTS alone. -/
theorem witness_LostEventsAreToldFirst :
    let room : State → Prop := fun u => (u.reports.countP fun r => r.code != 0) < 24 ∧ u.reports.length < 32
    ((withEvents 23 0).lost = 0 ∧ room (withEvents 23 0)) ∧ ¬room (withEvents 24 65535)
      ∧ ((withEvents 22 7).lost ≠ 0 ∧ room (withEvents 22 7)
        ∧ room ({ withEvents 22 7 with lost := 0 }.queueEvent (.lostEvents 7)))
      ∧ ((withEvents 23 7).lost ≠ 0 ∧ room (withEvents 23 7)
        ∧ ¬room ({ withEvents 23 7 with lost := 0 }.queueEvent (.lostEvents 7))) := by decide +kernel

end Sys2Proof.Tests
end

section
/-! The sample memory, the tables and the Clip Directory stay in form and range at every step (R2, R49, R106). -/

namespace Sys2Proof.Machine
-- As in the tests, one thread: the whole text is compiled under one limit of memory.
set_option Elab.async false

/-! What is kept, and by which changes it is kept for sure -/

/-- The part of the canonical form that the store's work can reach: the sample memory and the Clip Directory. -/
def State.storeCanonical (s : State) : Prop :=
  Memory.wf s.memory = true ∧ sparseSorted s.clips = true ∧ ∀ p ∈ s.clips, p.1 < 512 ∧ p.2 ≠ Clip.freed

/-- The part of the canonical form that the orders on records reach: the Splice Table. -/
def State.tableCanonical (s : State) : Prop := sparseSorted s.table = true ∧ ∀ p ∈ s.table, p.1 < 256

theorem State.canonical_iff (s : State) : s.canonical ↔ s.storeCanonical ∧ s.tableCanonical := by
  unfold State.canonical State.storeCanonical State.tableCanonical
  tauto

theorem State.canonical.store {s : State} (h : s.canonical) : s.storeCanonical := (s.canonical_iff.mp h).1

/-- `t` has every form and range of the memory and the tables that `s` has. -/
def State.Keeps (s t : State) : Prop :=
  (s.canonical → t.canonical) ∧ (s.tableSound → t.tableSound) ∧ (s.cueMapSound → t.cueMapSound)
    ∧ (s.lawSound → t.lawSound)

theorem State.Keeps.refl (s : State) : s.Keeps s := ⟨id, id, id, id⟩

theorem State.Keeps.trans {s t u : State} (h : s.Keeps t) (h' : t.Keeps u) : s.Keeps u := by
  obtain ⟨hc, ht, hm, hl⟩ := h
  obtain ⟨hc', ht', hm', hl'⟩ := h'
  exact ⟨hc' ∘ hc, ht' ∘ ht, hm' ∘ hm, hl' ∘ hl⟩

/-- Work on the store alone keeps what it keeps of the store. -/
theorem State.keeps_of_store {s t : State} (ht : t.table = s.table) (hm : t.cueMap = s.cueMap) (hl : t.law = s.law)
    (h : s.storeCanonical → t.storeCanonical) : s.Keeps t := by
  refine ⟨?_, ?_, ?_, ?_⟩
  · rw [State.canonical_iff, State.canonical_iff]
    unfold State.tableCanonical
    rw [ht]
    exact And.imp_left h
  · unfold State.tableSound; rw [ht]; exact id
  · unfold State.cueMapSound; rw [hm]; exact id
  · unfold State.lawSound; rw [hl]; exact id

theorem State.storeCanonical_congr {s t : State} (hm : t.memory = s.memory) (hc : t.clips = s.clips)
    (h : s.storeCanonical) : t.storeCanonical := by
  unfold State.storeCanonical
  rwa [hm, hc]

/-- What changes none of the five fields keeps everything. -/
theorem State.keeps_of_fields {s t : State} (hm : t.memory = s.memory) (hc : t.clips = s.clips)
    (ht : t.table = s.table) (hq : t.cueMap = s.cueMap) (hl : t.law = s.law) : s.Keeps t :=
  State.keeps_of_store ht hq hl (State.storeCanonical_congr hm hc)

theorem State.keeps_offerEvents (s : State) (es : List Event) : s.Keeps (s.offerEvents es) := by
  apply State.keeps_of_fields <;> simp

theorem defaultLaw_le : ∀ g ∈ State.defaultLaw.toList, g ≤ 65536 := by decide

/-- An empty store and empty tables under the default law have every form and range. -/
theorem State.keeps_restart (s : State) (station : BitVec 5) : s.Keeps (s.restart station) :=
  ⟨fun _ => ⟨rfl, rfl, rfl, nofun, nofun⟩, fun _ => nofun, fun _ => ⟨Nat.zero_le _, List.nodup_nil, nofun⟩,
    fun _ => defaultLaw_le⟩

/-! The store: clips and samples -/

theorem State.storeCanonical_setClip {s : State} (h : s.storeCanonical) {c : Nat} (hc : c < 512) (v : Clip) :
    (s.setClip c v).storeCanonical := by
  obtain ⟨hm, hs, hn⟩ := h
  refine ⟨hm, State.sorted_setClip hs c v, fun p hp => ?_⟩
  rcases State.mem_setClip hp with ⟨rfl, hv⟩ | hp
  · exact ⟨hc, hv⟩
  · exact hn p hp

theorem State.storeCanonical_freeClip {s : State} (h : s.storeCanonical) {c : Nat} (hc : c < 512) :
    (s.freeClip c).storeCanonical := State.storeCanonical_setClip h hc Clip.freed

theorem State.storeCanonical_addUses {s : State} (h : s.storeCanonical) (vs : List Voice) :
    (vs.foldl (fun s v => s.addUse v.clip.val) s).storeCanonical := by
  induction vs generalizing s with
  | nil => exact h
  | cons v vs ih => exact ih (State.storeCanonical_setClip h v.clip.isLt _)

theorem State.storeCanonical_releaseUses {s : State} (h : s.storeCanonical) (vs : List Voice) :
    (vs.foldl (fun s v => s.releaseUse v.clip.val) s).storeCanonical := by
  induction vs generalizing s with
  | nil => exact h
  | cons v vs ih => exact ih (State.storeCanonical_setClip h v.clip.isLt _)

theorem State.storeCanonical_freeClips {cs : List Nat} (hcs : ∀ c ∈ cs, c < 512) {s : State} (h : s.storeCanonical) :
    (cs.foldl State.freeClip s).storeCanonical := by
  induction cs generalizing s with
  | nil => exact h
  | cons c cs ih =>
    exact ih (fun d hd => hcs d (List.mem_cons_of_mem _ hd)) (State.storeCanonical_freeClip h (hcs c List.mem_cons_self))

theorem State.storeCanonical_freeDoomed {s : State} (h : s.storeCanonical) : s.freeDoomed.1.storeCanonical := by
  refine State.storeCanonical_freeClips (fun c hc => ?_) h
  obtain ⟨p, hp, rfl⟩ := List.mem_map.mp hc
  obtain ⟨-, -, hn⟩ := h
  exact (hn p (List.mem_filter.mp hp).1).1

theorem State.storeCanonical_writeClip {s t : State} (h : s.storeCanonical) {c : Nat} (hc : c < 512) {x : Sample}
    (ht : s.writeClip c x = some t) : t.storeCanonical := by
  have written : ∀ v a, Memory.wf (Memory.write s.memory a x) = true ∧ sparseSorted (s.setClip c v).clips = true
      ∧ ∀ p ∈ (s.setClip c v).clips, p.1 < 512 ∧ p.2 ≠ Clip.freed := fun v a =>
    ⟨Memory.write_wf h.1 a x, (State.storeCanonical_setClip h hc v).2⟩
  rcases s.writeClip_cases c x with ⟨-, -, hn⟩ | ⟨block, rest, -, -, hw⟩ | ⟨-, hw⟩
  · rw [hn] at ht; cases ht
  · rw [hw] at ht; cases ht; exact written _ _
  · rw [hw] at ht; cases ht; exact written _ _

/-! The lanes -/

theorem State.storeCanonical_setLane {s : State} (h : s.storeCanonical) (i : Fin 8) (l : Lane) :
    (s.setLane i l).storeCanonical := State.storeCanonical_congr (s.setLane_memory i l) (s.setLane_clips i l) h

theorem State.storeCanonical_setSlots {s : State} (h : s.storeCanonical) (js : List (Fin 16)) (owner : Option (Fin 8)) :
    (s.setSlots js owner).storeCanonical :=
  State.storeCanonical_congr (s.setSlots_memory js owner) (s.setSlots_clips js owner) h

theorem storeCanonical_releaseClaims {s : State} (h : s.storeCanonical) (i : Fin 8) (r : Record) :
    (releaseClaims i r s).storeCanonical :=
  State.storeCanonical_setLane
    (State.storeCanonical_releaseUses (State.storeCanonical_setSlots h (s.lane i).slots none) r.voices) i _

theorem storeCanonical_loadRecord {w : LaneWork} (h : w.st.storeCanonical) (i : Fin 8) (index : Fin 256) :
    (loadRecord i index w).st.storeCanonical := by
  rcases loadRecord_cases i index w with ⟨r, -, hl⟩ | ⟨reason, -, hl⟩ <;> rw [hl]
  · exact State.storeCanonical_setLane
      (State.storeCanonical_addUses (State.storeCanonical_setSlots h r.slotSet (some i)) r.voices) i _
  · exact State.storeCanonical_setLane h i Lane.idle

theorem storeCanonical_endRecord {w : LaneWork} (h : w.st.storeCanonical) (i : Fin 8) :
    (endRecord i w).st.storeCanonical := by
  rcases endRecord_cases i w with ⟨-, he⟩ | ⟨r, -, ⟨index, -, he⟩ | ⟨-, -, he⟩⟩ <;> rw [he]
  · exact h
  · exact storeCanonical_loadRecord (storeCanonical_releaseClaims h i r) i index
  · exact storeCanonical_releaseClaims h i r

theorem storeCanonical_applyReleaseOrder {w : LaneWork} (h : w.st.storeCanonical) (i : Fin 8) :
    (applyReleaseOrder i w).st.storeCanonical := by
  unfold applyReleaseOrder
  dsimp only
  cases (w.st.lane i).copy <;> exact h

theorem storeCanonical_abandonLane (reason : EndReason) {w : LaneWork} (h : w.st.storeCanonical) (i : Fin 8) :
    (abandonLane reason w i).st.storeCanonical := by
  unfold abandonLane
  dsimp only
  cases (w.st.lane i).copy with
  | none => exact h
  | some r => exact storeCanonical_releaseClaims h i r

theorem storeCanonical_applyAbortOrder {w : LaneWork} (h : w.st.storeCanonical) (i : Fin 8) :
    (applyAbortOrder i w).st.storeCanonical := storeCanonical_abandonLane .aborted h i

theorem storeCanonical_abandonLanes (reason : EndReason) {s : State} (h : s.storeCanonical) :
    (abandonLanes reason s).st.storeCanonical :=
  List.foldlRecOn (motive := fun w : LaneWork => w.st.storeCanonical) _ _ h
    fun _ hw i _ => storeCanonical_abandonLane reason hw i

theorem storeCanonical_advanceLane {w : LaneWork} (h : w.st.storeCanonical) (i : Fin 8) :
    (advanceLane i w).st.storeCanonical := by
  unfold advanceLane
  dsimp only
  split <;> exact h

theorem storeCanonical_applyWaiting {w : LaneWork} (h : w.st.storeCanonical) (i : Fin 8) :
    (applyWaiting i w).st.storeCanonical := by
  unfold applyWaiting
  split
  · exact h
  · exact storeCanonical_applyReleaseOrder h i
  · exact storeCanonical_applyAbortOrder h i

theorem storeCanonical_endIfDue {w : LaneWork} (h : w.st.storeCanonical) (i : Fin 8) :
    (endIfDue i w).st.storeCanonical := by
  unfold endIfDue
  dsimp only
  split
  · exact storeCanonical_endRecord h i
  · exact h

theorem storeCanonical_queueTrigger {w : LaneWork} (h : w.st.storeCanonical) (i : Fin 8) (t : LaneTrigger) :
    (queueTrigger i t w).st.storeCanonical := by
  unfold queueTrigger
  dsimp only
  split <;> exact h

theorem storeCanonical_cutTrigger {w : LaneWork} (h : w.st.storeCanonical) (i : Fin 8) (t : LaneTrigger) :
    (cutTrigger i t w).st.storeCanonical := by
  unfold cutTrigger
  dsimp only
  split
  · exact h
  · split
    · split
      · refine storeCanonical_endRecord ?_ i
        exact h
      · exact h
    · exact h

theorem storeCanonical_applyTrigger {w : LaneWork} (h : w.st.storeCanonical) (i : Fin 8) (t : LaneTrigger) :
    (applyTrigger i w t).st.storeCanonical := by
  unfold applyTrigger
  split
  · split
    · exact storeCanonical_queueTrigger h i t
    · exact storeCanonical_cutTrigger h i t
    · exact h
  · exact storeCanonical_loadRecord h i t.record

theorem storeCanonical_applyTriggers {w : LaneWork} (h : w.st.storeCanonical) (ts : List LaneTrigger) (i : Fin 8) :
    (applyTriggers ts i w).st.storeCanonical :=
  List.foldlRecOn (motive := fun w : LaneWork => w.st.storeCanonical) _ _ h
    fun _ hw t _ => storeCanonical_applyTrigger hw i t

theorem storeCanonical_laneSteps {w : LaneWork} (h : w.st.storeCanonical) (ts : List LaneTrigger) (i : Fin 8) :
    (laneSteps ts i w).st.storeCanonical :=
  storeCanonical_applyTriggers
    (storeCanonical_endIfDue (storeCanonical_applyWaiting (storeCanonical_advanceLane h i) i) i) ts i

/-! The capture units -/

theorem CaptureUnit.clipNumber_lt (v : CaptureUnit) : v.clipNumber < 512 := by
  unfold CaptureUnit.clipNumber
  cases v.clip with
  | none => decide
  | some c => exact c.isLt

theorem storeCanonical_startUnit {s : State} (h : s.storeCanonical) (u : Fin 2) : (startUnit u s).1.storeCanonical :=
  State.storeCanonical_setClip (s := s.setUnit u _) h (CaptureUnit.clipNumber_lt _) _

theorem storeCanonical_completeCapture {s : State} (h : s.storeCanonical) (u : Fin 2) :
    (completeCapture u s).1.storeCanonical :=
  State.storeCanonical_setClip (s := s.setUnit u _) h (CaptureUnit.clipNumber_lt _) _

theorem storeCanonical_endCaptureShort {s : State} (h : s.storeCanonical) (reason : DoneReason) (u : Fin 2) :
    (endCaptureShort reason u s).1.storeCanonical := by
  unfold endCaptureShort
  dsimp only
  split
  · exact State.storeCanonical_freeClip (s := s.setUnit u _) h (CaptureUnit.clipNumber_lt _)
  · exact State.storeCanonical_setClip (s := s.setUnit u _) h (CaptureUnit.clipNumber_lt _) _

theorem storeCanonical_writeUnit {s : State} (h : s.storeCanonical) (programme : SampleSet) (u : Fin 2) :
    (writeUnit programme u s).1.storeCanonical := by
  unfold writeUnit
  dsimp only
  split
  · exact storeCanonical_endCaptureShort h _ u
  · rename_i t ht
    have written : t.storeCanonical := State.storeCanonical_writeClip h (CaptureUnit.clipNumber_lt _) ht
    split
    · refine storeCanonical_completeCapture ?_ u
      exact written
    · exact written

theorem storeCanonical_unitWork {s : State} (h : s.storeCanonical) (programme : SampleSet) (delivered : Bool)
    (u : Fin 2) : (unitWork programme delivered u s).1.storeCanonical := by
  have written : ∀ (e : State × List Event), e.1.storeCanonical →
      (if (e.1.unit u).state = .recording then
        ((writeUnit programme u e.1).1, e.2 ++ (writeUnit programme u e.1).2) else e).1.storeCanonical := by
    intro e he
    split
    · exact storeCanonical_writeUnit he programme u
    · exact he
  unfold unitWork
  cases delivered with
  | false => exact written (s, []) h
  | true => exact written (startUnit u s) (storeCanonical_startUnit h u)

theorem storeCanonical_cancelUnit {s : State} (h : s.storeCanonical) (reason : CancelReason) (u : Fin 2) :
    (cancelUnit reason u s).1.storeCanonical := by
  unfold cancelUnit
  dsimp only
  split
  · exact h
  · exact State.storeCanonical_freeClip h (CaptureUnit.clipNumber_lt _)

theorem storeCanonical_loseUnit {s : State} (h : s.storeCanonical) (u : Fin 2) : (loseUnit u s).1.storeCanonical := by
  unfold loseUnit
  split
  · exact h
  · exact storeCanonical_cancelUnit h _ u
  · exact storeCanonical_endCaptureShort h _ u

theorem storeCanonical_eachUnit {f : Fin 2 → State → State × List Event}
    (hf : ∀ u s, s.storeCanonical → (f u s).1.storeCanonical) {s : State} (h : s.storeCanonical) :
    (eachUnit f s).1.storeCanonical := hf 1 _ (hf 0 _ h)

/-! The arrival -/

theorem storeCanonical_unitsAt (p : ArrivalPlan) (s0 : State) (turn : Fin 10) {w : ArrivalWork}
    (h : w.lanes.st.storeCanonical) : (unitsAt p s0 turn w).lanes.st.storeCanonical := by
  have one : ∀ u {w : ArrivalWork}, w.lanes.st.storeCanonical → (unitAt p s0 turn u w).lanes.st.storeCanonical := by
    intro u w h
    unfold unitAt
    split
    · exact storeCanonical_unitWork h _ _ u
    · exact h
  exact one 1 (one 0 h)

theorem storeCanonical_lanesWork (p : ArrivalPlan) {s : State} (h : s.storeCanonical) :
    (lanesWork p s).lanes.st.storeCanonical := by
  refine storeCanonical_unitsAt p s 8 (List.foldlRecOn (motive := fun w : ArrivalWork => w.lanes.st.storeCanonical)
    _ _ h fun w hw i _ => ?_)
  exact storeCanonical_laneSteps (storeCanonical_unitsAt p s _ hw) _ i

theorem storeCanonical_returnsWork (p : ArrivalPlan) {s : State} (h : s.storeCanonical) :
    (returnsWork p s).1.lanes.st.storeCanonical := by
  unfold returnsWork
  refine storeCanonical_unitsAt p s 9 ?_
  exact State.storeCanonical_freeDoomed (storeCanonical_lanesWork p h)

theorem storeCanonical_frameWork (programme : SampleSet) (word : Option ControlWord) {s : State}
    (h : s.storeCanonical) : (frameWork programme word s).1.storeCanonical := by
  have started : ((arbitrate s word).emit s.dropDue).storeCanonical := by
    cases arbitrate s word <;> exact h
  have worked := storeCanonical_returnsWork (arrivalPlan s programme) started
  refine State.storeCanonical_congr ?_ ?_ worked
  all_goals
    simp only [frameWork]
    rw [offerAndDepart_frame, orderUnitWork_frame, admitAll_frame]
    rfl

theorem keeps_frameWork (programme : SampleSet) (word : Option ControlWord) (s : State) :
    s.Keeps (frameWork programme word s).1 :=
  State.keeps_of_store (by rw [frameWork_frame]) (by rw [frameWork_frame]) (by rw [frameWork_frame])
    (storeCanonical_frameWork programme word)

/-! What the steps of the frame work keep -/

theorem LaneWork.Follows.keeps {w w' : LaneWork} (h : w.Follows w') (hs : w.st.storeCanonical → w'.st.storeCanonical) :
    w.st.Keeps w'.st :=
  State.keeps_of_store (by rw [h.1]) (by rw [h.1]) (by rw [h.1]) hs

theorem State.CaptureFollows.keeps {s t : State} (h : s.CaptureFollows t) (hs : s.storeCanonical → t.storeCanonical) :
    s.Keeps t := by
  unfold State.CaptureFollows at h
  exact State.keeps_of_store (by rw [h]) (by rw [h]) (by rw [h]) hs

theorem keeps_abandonLanes (reason : EndReason) (s : State) : s.Keeps (abandonLanes reason s).st :=
  (LaneWork.follows_abandonLanes reason s).keeps (storeCanonical_abandonLanes reason)

theorem State.keeps_freeDoomed (s : State) : s.Keeps s.freeDoomed.1 :=
  State.keeps_of_store (by rw [s.freeDoomed_frame]) (by rw [s.freeDoomed_frame]) (by rw [s.freeDoomed_frame])
    State.storeCanonical_freeDoomed

theorem State.keeps_flushTriggers (s : State) : s.Keeps s.flushTriggers := State.keeps_of_fields rfl rfl rfl rfl rfl

theorem keeps_eachUnit {f : Fin 2 → State → State × List Event} (h : ∀ u s, State.Keeps s (f u s).1) (s : State) :
    s.Keeps (eachUnit f s).1 := (h 0 s).trans (h 1 _)

theorem keeps_loseUnit (u : Fin 2) (s : State) : s.Keeps (loseUnit u s).1 :=
  (s.captureFollows_loseUnit u).keeps fun h => storeCanonical_loseUnit h u

theorem keeps_cancelUnit (reason : CancelReason) (u : Fin 2) (s : State) : s.Keeps (cancelUnit reason u s).1 :=
  (s.captureFollows_cancelUnit reason u).keeps fun h => storeCanonical_cancelUnit h reason u

theorem keeps_startIf (delivered : Bool) (u : Fin 2) (s : State) : s.Keeps (startIf delivered u s).1 := by
  unfold startIf
  split
  · exact (s.captureFollows_startUnit u).keeps fun h => storeCanonical_startUnit h u
  · exact State.Keeps.refl s

theorem keeps_loseAssembly (s : State) : s.Keeps (loseAssembly s).1 := by
  unfold loseAssembly
  split
  · exact State.Keeps.refl s
  · exact State.keeps_of_fields rfl rfl rfl rfl rfl

theorem keeps_admitAll (awaited : Nat → Fin 4096 → Bool) (endCues : List EndCue) (cueWord : List (Fin 4096 × Fin 4096))
    (s : State) : s.Keeps (admitAll awaited endCues cueWord s).1 := by
  rw [admitAll_frame]
  exact State.keeps_of_fields rfl rfl rfl rfl rfl

theorem keeps_finishLanes (es : List Event) (w : LaneWork) : w.st.Keeps (finishLanes es w) :=
  (w.st.keeps_freeDoomed.trans (keeps_admitAll _ _ _ _)).trans (State.keeps_offerEvents _ _)

theorem keeps_loseLink (s : State) : s.Keeps (loseLink s) := by
  have abandoned := keeps_abandonLanes .linkLost s
  have freed := (abandonLanes .linkLost s).st.keeps_freeDoomed
  have stopped := keeps_eachUnit keeps_loseUnit (abandonLanes .linkLost s).st.freeDoomed.1
  simp only [loseLink]
  generalize abandonLanes .linkLost s = w at *
  generalize w.st.freeDoomed = f at *
  generalize eachUnit loseUnit f.1 = g at *
  have discarded := g.1.keeps_flushTriggers.trans (keeps_loseAssembly _)
  generalize loseAssembly g.1.flushTriggers = d at *
  refine (((abandoned.trans freed).trans stopped).trans discarded).trans
    ((State.keeps_offerEvents d.1 ([.linkLost s.frameCount] ++ w.reports ++ f.2 ++ g.2 ++ d.2)).trans ?_)
  exact State.keeps_of_fields rfl rfl rfl rfl rfl

/-- Work that stands for an arrival of the next frame count keeps what it keeps there. -/
theorem State.keeps_atNextCount {f : State → State} (h : ∀ s : State, s.Keeps (f s)) (s : State) :
    s.Keeps (s.atNextCount f) := by
  have next : s.Keeps { s with frameCount := s.frameCount + 1 } := State.keeps_of_fields rfl rfl rfl rfl rfl
  exact (next.trans (h _)).trans (State.keeps_of_fields rfl rfl rfl rfl rfl)

/-! The fields of a LOAD RECORD body (R13, R14) -/

theorem fieldBelow_eq_some {n : Nat} {w : Payload} {i : Fin n} : fieldBelow n w = some i ↔ w.toNat = i.val := by
  unfold fieldBelow
  split
  · simp [Fin.ext_iff]
  · rename_i h
    simp only [reduceCtorEq, false_iff]
    omega

theorem flagField_eq_some {w : Payload} {b : Bool} : flagField w = some b ↔ w.toNat = flagCode b := by
  unfold flagField
  split
  · cases b <;> simp [flagCode, *]
  · cases b <;> simp [flagCode, *]
  · rename_i h0 h1
    cases b
    · exact ⟨nofun, fun h => absurd h h0⟩
    · exact ⟨nofun, fun h => absurd h h1⟩

theorem linkField_eq_some {w : Payload} {link : Option (Fin 256)} : linkField w = some link ↔ w.toNat = indexOr256 link := by
  unfold linkField
  split
  · cases link with
    | none => simp [indexOr256, *]
    | some i => simp [indexOr256, *]; omega
  · cases link with
    | none => simp [indexOr256, *]
    | some i => simp [indexOr256, fieldBelow_eq_some]

theorem voiceFields_cons_eq_some {slot clip : Payload} {rest : List Payload} {v : Voice} {vs : List Voice} :
    voiceFields (slot :: clip :: rest) = some (v :: vs)
      ↔ fieldBelow 16 slot = some v.slot ∧ fieldBelow 512 clip = some v.clip ∧ voiceFields rest = some vs := by
  obtain ⟨j, c⟩ := v
  rw [voiceFields]
  cases fieldBelow 16 slot <;> cases fieldBelow 512 clip <;> cases voiceFields rest <;> simp [and_assoc]

/-- The voices read from a body are the ones whose slot and clip numbers the words spell. -/
theorem voiceFields_eq_some : ∀ {ws : List Payload} {vs : List Voice},
    voiceFields ws = some vs ↔ ws.map BitVec.toNat = vs.flatMap fun v => [v.slot.val, v.clip.val]
  | [], vs => by cases vs <;> simp [voiceFields]
  | [w], vs => by cases vs <;> simp [voiceFields]
  | slot :: clip :: rest, [] => by
    rw [voiceFields]
    cases fieldBelow 16 slot <;> cases fieldBelow 512 clip <;> cases voiceFields rest <;> simp
  | slot :: clip :: rest, v :: vs => by
    rw [voiceFields_cons_eq_some, fieldBelow_eq_some, fieldBelow_eq_some, voiceFields_eq_some]
    simp

theorem length_of_voiceFields {ws : List Payload} {vs : List Voice} (h : voiceFields ws = some vs) :
    ws.length = 2 * vs.length := by
  have := congrArg List.length (voiceFields_eq_some.mp h)
  simpa [List.length_flatMap, Nat.mul_comm] using this

/-- An end cue read from a body: cue number 0 stands for absent, whatever the other two fields are. -/
theorem endCueFields_eq_some {cue offset forward : Payload} {e : Option EndCue} :
    endCueFields cue offset forward = some e
      ↔ ∃ c o f, fieldBelow 4096 cue = some c ∧ fieldBelow 4096 offset = some o ∧ flagField forward = some f
        ∧ e = if c.val = 0 then none else some { cue := c, offset := o, forward := f } := by
  unfold endCueFields
  split
  · rename_i c o f hc ho hf
    simp [hc, ho, hf, eq_comm]
  · rename_i h
    simp only [reduceCtorEq, false_iff]
    rintro ⟨c, o, f, hc, ho, hf, -⟩
    exact h c o f hc ho hf

theorem recordFields_eq_some {length start repeats rIn rOut under next reportStart reportEnd tag cue offset forward : Payload}
    {voices : List Payload} {r : Record} :
    recordFields length start repeats rIn rOut under next reportStart reportEnd tag cue offset forward voices = some r
      ↔ length.toNat = r.length ∧ start.toNat = r.start ∧ fieldBelow 256 repeats = some r.repeats
        ∧ fieldBelow 1024 rIn = some r.rIn ∧ fieldBelow 1024 rOut = some r.rOut ∧ fieldBelow 64 under = some r.under
        ∧ linkField next = some r.next ∧ flagField reportStart = some r.reportStart
        ∧ flagField reportEnd = some r.reportEnd ∧ fieldBelow 256 tag = some r.tag
        ∧ endCueFields cue offset forward = some r.endCue ∧ voiceFields voices = some r.voices
        ∧ r.length ≠ 0 ∧ (r.voices.map Voice.slot).Nodup := by
  unfold recordFields
  simp only [Option.bind_eq_bind, Option.bind_eq_some_iff]
  constructor
  · rintro ⟨repeats', h1, rIn', h2, rOut', h3, under', h4, next', h5, rs, h6, re, h7, tag', h8, e, h9, vs, h10, h⟩
    split at h
    · rename_i hv
      cases h
      exact ⟨rfl, rfl, h1, h2, h3, h4, h5, h6, h7, h8, h9, h10, hv⟩
    · cases h
  · rintro ⟨h0, h0', h1, h2, h3, h4, h5, h6, h7, h8, h9, h10, hv⟩
    refine ⟨_, h1, _, h2, _, h3, _, h4, _, h5, _, h6, _, h7, _, h8, _, h9, _, h10, ?_⟩
    rw [h0, h0', if_pos hv]

theorem sound_of_recordFields
    {length start repeats rIn rOut under next reportStart reportEnd tag cue offset forward : Payload}
    {voices : List Payload} {r : Record} (hv : voices.length ≤ 8)
    (h : recordFields length start repeats rIn rOut under next reportStart reportEnd tag cue offset forward voices
      = some r) : r.sound := by
  obtain ⟨hl, hs, -, -, -, -, -, -, -, -, hcue, hvs, hne, hnodup⟩ := recordFields_eq_some.mp h
  obtain ⟨c, o, f, -, -, -, he⟩ := endCueFields_eq_some.mp hcue
  have := length.isLt
  have := start.isLt
  have := length_of_voiceFields hvs
  refine ⟨by omega, by omega, by omega, by omega, hnodup, fun e hr => ?_⟩
  rw [he] at hr
  split at hr
  · cases hr
  · rename_i hc
    cases hr
    exact fun h0 => hc (congrArg Fin.val h0)

theorem keeps_setRecord (s : State) (i : Fin 256) {r : Record} (hr : r.sound) : s.Keeps (s.setRecord i.val r) := by
  refine ⟨?_, fun h p hp => ?_, id, id⟩
  · rw [State.canonical_iff, State.canonical_iff]
    rintro ⟨hs, hsorted, hlt⟩
    refine ⟨hs, sparseSorted_insert hsorted _ r, fun p hp => ?_⟩
    rcases mem_sparseInsert hp with rfl | hp
    · exact i.isLt
    · exact hlt p hp
  · rcases mem_sparseInsert hp with rfl | hp
    · exact hr
    · exact h p hp

theorem keeps_eraseRecord (s : State) (i : Nat) : s.Keeps (s.eraseRecord i) := by
  refine ⟨?_, fun h p hp => h p (mem_sparseErase hp), id, id⟩
  rw [State.canonical_iff, State.canonical_iff]
  rintro ⟨hs, hsorted, hlt⟩
  exact ⟨hs, sparseSorted_erase hsorted i, fun p hp => hlt p (mem_sparseErase hp)⟩

/-- Everything LOAD RECORD can do to the state: nothing, or load a sound record (R13, R14). -/
theorem orderLoadRecord_st_cases (body : List Payload) (s : State) :
    (orderLoadRecord body s).st = s
      ∨ ∃ (i : Fin 256) (r : Record), r.sound ∧ (orderLoadRecord body s).st = s.setRecord i.val r := by
  unfold orderLoadRecord
  split
  · split
    · exact .inl rfl
    · rename_i hv
      split
      · exact .inl rfl
      · split
        · exact .inl rfl
        · split
          · rename_i i r _ hr
            exact .inr ⟨i, r, sound_of_recordFields (Nat.le_of_not_lt hv) hr, rfl⟩
          · exact .inl rfl
  · exact .inl rfl

theorem keeps_orderLoadRecord (body : List Payload) (s : State) : s.Keeps (orderLoadRecord body s).st := by
  rcases orderLoadRecord_st_cases body s with h | ⟨i, r, hr, h⟩ <;> rw [h]
  · exact State.Keeps.refl s
  · exact keeps_setRecord s i hr

theorem keeps_orderEraseRecord (body : List Payload) (s : State) : s.Keeps (orderEraseRecord body s).st := by
  unfold orderEraseRecord
  split
  · split
    · exact State.Keeps.refl s
    · split
      · exact State.Keeps.refl s
      · exact keeps_eraseRecord s _
  · exact State.Keeps.refl s

/-! The Cue Map (R106 to R108) and the fade law (R51) -/

theorem cueField_ne_zero {w : Payload} {c : Fin 4096} (h : cueField w = some c) : c ≠ 0 := by
  unfold cueField at h
  split at h
  · cases h
  · rename_i hw
    rintro rfl
    exact hw (fieldBelow_eq_some.mp h)

theorem mapped_eq_none_iff (s : State) (c : Fin 4096) : s.mapped c = none ↔ c ∉ s.cueMap.map CueMapEntry.cue := by
  simp [State.mapped, List.find?_eq_none]

/-- Replacing an entry in its place leaves the cue numbers of the map as they were. -/
theorem map_cue_replaceEntry (e : CueMapEntry) (map : List CueMapEntry) :
    (replaceEntry e map).map CueMapEntry.cue = map.map CueMapEntry.cue := by
  unfold replaceEntry
  rw [List.map_map]
  refine List.map_congr_left fun old _ => ?_
  simp only [Function.comp_apply]
  split
  · rename_i h; exact h.symm
  · rfl

theorem State.keeps_cueMap {s : State} {map : List CueMapEntry}
    (h : s.cueMapSound → ({ s with cueMap := map } : State).cueMapSound) : s.Keeps { s with cueMap := map } :=
  ⟨id, id, h, id⟩

theorem keeps_orderMapCue (body : List Payload) (s : State) : s.Keeps (orderMapCue body s).st := by
  unfold orderMapCue
  split
  · split
    · rename_i c i r p hc _ _ _
      dsimp only
      split
      · refine State.keeps_cueMap ?_
        rintro ⟨hlen, hnodup, hzero⟩
        refine ⟨by simpa [replaceEntry] using hlen, by rwa [map_cue_replaceEntry], fun e he => ?_⟩
        obtain ⟨old, hold, rfl⟩ := List.mem_map.mp he
        split
        · exact cueField_ne_zero hc
        · exact hzero old hold
      · rename_i hm
        split
        · rename_i hlt
          have fresh : c ∉ s.cueMap.map CueMapEntry.cue := (mapped_eq_none_iff s c).mp (by simpa using hm)
          refine State.keeps_cueMap ?_
          rintro ⟨-, hnodup, hzero⟩
          refine ⟨by simpa using hlt, ?_, fun e he => ?_⟩
          · rw [List.map_append]
            exact hnodup.append (List.nodup_singleton _) (by simpa using fresh)
          · rcases List.mem_append.mp he with he | he
            · exact hzero e he
            · rw [List.mem_singleton.mp he]
              exact cueField_ne_zero hc
        · exact State.Keeps.refl s
    · exact State.Keeps.refl s
  · exact State.Keeps.refl s

theorem keeps_orderUnmapCue (body : List Payload) (s : State) : s.Keeps (orderUnmapCue body s).st := by
  unfold orderUnmapCue
  split
  · split
    · exact State.Keeps.refl s
    · split
      · exact State.Keeps.refl s
      · refine State.keeps_cueMap ?_
        rintro ⟨hlen, hnodup, hzero⟩
        exact ⟨(List.length_filter_le ..).trans hlen, hnodup.sublist (List.filter_sublist.map _),
          fun e he => hzero e (List.mem_filter.mp he).1⟩
  · exact State.Keeps.refl s

theorem State.keeps_law {s : State} {law : Vector Nat 64} (h : ∀ g ∈ law.toList, g ≤ 65536) :
    s.Keeps { s with law := law } := ⟨id, id, id, fun _ => h⟩

theorem keeps_orderLoadLaw (body : List Payload) (s : State) : s.Keeps (orderLoadLaw body s).st := by
  unfold orderLoadLaw
  split
  · exact State.Keeps.refl s
  · rename_i hlen
    split
    · exact State.Keeps.refl s
    · rename_i hle
      refine State.keeps_law fun g hg => ?_
      change g ∈ (Vector.ofFn fun i : Fin 64 => (body.getD i.val 0).toNat).toList at hg
      rw [Vector.toList_ofFn] at hg
      obtain ⟨i, rfl⟩ := List.mem_ofFn.mp hg
      have hi : i.val < body.length := by omega
      simp only [List.any_eq_true, decide_eq_true_eq, not_exists, not_and, not_lt] at hle
      rw [List.getD_eq_getElem _ _ hi]
      exact hle _ (List.getElem_mem hi)

/-! The orders on clips and captures, and CLEAR STATION -/

theorem State.keeps_setClip (s : State) (c : Fin 512) (v : Clip) : s.Keeps (s.setClip c.val v) :=
  State.keeps_of_store rfl rfl rfl fun h => State.storeCanonical_setClip h c.isLt v

theorem State.keeps_freeClip (s : State) (c : Fin 512) : s.Keeps (s.freeClip c.val) :=
  State.keeps_of_store rfl rfl rfl fun h => State.storeCanonical_freeClip h c.isLt

theorem State.keeps_setUnit (s : State) (u : Fin 2) (v : CaptureUnit) : s.Keeps (s.setUnit u v) :=
  State.keeps_of_fields rfl rfl rfl rfl rfl

/-- An order on one clip keeps what its act on every clip keeps. -/
theorem keeps_clipOrder {act : Nat → State → OrderResult} (h : ∀ (c : Fin 512) s, State.Keeps s (act c.val s).st)
    (body : List Payload) (s : State) : s.Keeps (clipOrder act body s).st := by
  unfold clipOrder
  split
  · split
    · exact State.Keeps.refl s
    · exact h _ s
  · exact State.Keeps.refl s

theorem keeps_openClip (c : Fin 512) (s : State) : s.Keeps (openClip c.val s).st := by
  unfold openClip
  split
  · exact s.keeps_setClip c _
  · exact State.Keeps.refl s

theorem keeps_closeClip (c : Fin 512) (s : State) : s.Keeps (closeClip c.val s).st := by
  unfold closeClip
  dsimp only
  split
  · exact State.Keeps.refl s
  · split
    · exact State.Keeps.refl s
    · exact s.keeps_setClip c _

theorem keeps_deleteClip (c : Fin 512) (s : State) : s.Keeps (deleteClip c.val s).st := by
  unfold deleteClip
  dsimp only
  split
  · exact State.Keeps.refl s
  · exact State.Keeps.refl s
  · split
    · exact s.keeps_freeClip c
    · exact State.Keeps.refl s
  · split
    · exact s.keeps_freeClip c
    · exact s.keeps_setClip c _
  · exact State.Keeps.refl s

theorem keeps_writeSamples (c : Fin 512) (xs : List Sample) (s : State) : s.Keeps (writeSamples c.val xs s) := by
  induction xs generalizing s with
  | nil => exact State.Keeps.refl s
  | cons x xs ih =>
    unfold writeSamples
    split
    · exact State.Keeps.refl s
    · rename_i t ht
      have written := (State.captureFollows_writeClip ht).keeps fun h => State.storeCanonical_writeClip h c.isLt ht
      exact written.trans (ih t)

theorem keeps_orderAppendClip (body : List Payload) (s : State) : s.Keeps (orderAppendClip body s).st := by
  unfold orderAppendClip
  split
  · dsimp only
    split
    · exact State.Keeps.refl s
    · split
      · exact State.Keeps.refl s
      · split
        · exact State.Keeps.refl s
        · split
          · exact State.Keeps.refl s
          · exact keeps_writeSamples _ _ s
  · exact State.Keeps.refl s

theorem keeps_orderCapture (body : List Payload) (s : State) : s.Keeps (orderCapture body s).st := by
  unfold orderCapture
  split
  · split
    · split
      · exact State.Keeps.refl s
      · split
        · exact State.Keeps.refl s
        · split
          · exact State.Keeps.refl s
          · split
            · exact (s.keeps_setUnit _ _).trans (State.keeps_setClip _ _ _)
            · exact (s.keeps_setUnit _ _).trans (State.keeps_setClip _ _ _)
    · exact State.Keeps.refl s
  · exact State.Keeps.refl s

theorem keeps_orderCancelCapture (body : List Payload) (s : State) : s.Keeps (orderCancelCapture body s).st := by
  unfold orderCancelCapture
  split
  · split
    · exact State.Keeps.refl s
    · split
      · exact State.Keeps.refl s
      · exact keeps_cancelUnit .order _ s
  · exact State.Keeps.refl s

theorem keeps_orderTake (body : List Payload) (s : State) : s.Keeps (orderTake body s).st := by
  rw [orderTake_frame]
  exact State.keeps_of_fields rfl rfl rfl rfl rfl

theorem keeps_orderWaiting (order : WaitingOrder) (body : List Payload) (s : State) :
    s.Keeps (orderWaiting order body s).st := by
  rw [orderWaiting_frame]
  exact State.keeps_of_fields rfl rfl rfl rfl rfl

theorem keeps_clearLanes (s : State) : s.Keeps (clearLanes s).1 :=
  ((keeps_abandonLanes .cleared s).trans (State.keeps_freeDoomed _)).trans (State.keeps_flushTriggers _)

theorem keeps_clearTables (s : State) : s.Keeps (clearTables s) := by
  refine ⟨?_, fun _ => nofun, fun _ => ⟨Nat.zero_le _, List.nodup_nil, nofun⟩, fun _ => defaultLaw_le⟩
  rw [State.canonical_iff, State.canonical_iff]
  exact fun h => ⟨h.1, rfl, nofun⟩

theorem keeps_clearStore (s : State) : s.Keeps (clearStore s).1 := by
  have emptied : ∀ t : State, t.Keeps { t with clips := [], freeBlocks := List.range 4096 } := fun t =>
    State.keeps_of_store rfl rfl rfl fun h => ⟨h.1, rfl, nofun⟩
  have cancelled := keeps_eachUnit (keeps_cancelUnit .cleared) s
  simp only [clearStore]
  exact cancelled.trans (emptied _)

theorem clearScopeLanes_st (s : State) : (clearScopeLanes s).st = (clearLanes s).1 := rfl
theorem clearScopeTables_st (s : State) : (clearScopeTables s).st = clearTables (clearLanes s).1 := rfl
theorem clearScopeStore_st (s : State) : (clearScopeStore s).st = (clearStore (clearLanes s).1).1 := by
  simp only [clearScopeStore]
theorem clearScopeAll_st (s : State) : (clearScopeAll s).st = (clearStore (clearTables (clearLanes s).1)).1 := by
  simp only [clearScopeAll]

theorem keeps_orderClearStation (body : List Payload) (s : State) : s.Keeps (orderClearStation body s).st := by
  have lanes := keeps_clearLanes s
  unfold orderClearStation
  split
  · split
    · rw [clearScopeLanes_st]; exact lanes
    · rw [clearScopeTables_st]; exact lanes.trans (keeps_clearTables _)
    · rw [clearScopeStore_st]; exact lanes.trans (keeps_clearStore _)
    · rw [clearScopeAll_st]; exact (lanes.trans (keeps_clearTables _)).trans (keeps_clearStore _)
    · exact State.Keeps.refl s
  · exact State.Keeps.refl s

/-! The taking of orders -/

theorem State.Keeps.of_eq {s t : State} (h : t = s) : s.Keeps t := h ▸ State.Keeps.refl s

/-- Every order's execution keeps the forms and ranges of the memory and the tables. -/
theorem keeps_executeOrder {code : Nat} {body : List Payload} {f : State → OrderResult}
    (h : executeOrder code body = some f) (s : State) : s.Keeps (f s).st := by
  unfold executeOrder at h
  split at h <;> cases h
  · exact .of_eq (orderReadStation_st body s)
  · exact keeps_orderClearStation body s
  · exact keeps_orderLoadRecord body s
  · exact keeps_orderEraseRecord body s
  · exact .of_eq (orderReadRecord_st body s)
  · exact keeps_orderMapCue body s
  · exact keeps_orderUnmapCue body s
  · exact .of_eq (orderReadCueMap_st body s)
  · exact keeps_orderTake body s
  · exact keeps_orderWaiting .release body s
  · exact keeps_orderWaiting .abort body s
  · exact .of_eq (orderReadLane_st body s)
  · exact keeps_clipOrder keeps_openClip body s
  · exact keeps_orderAppendClip body s
  · exact keeps_clipOrder keeps_closeClip body s
  · exact keeps_clipOrder keeps_deleteClip body s
  · exact .of_eq (orderReadClip_st body s)
  · exact keeps_orderCapture body s
  · exact keeps_orderCancelCapture body s
  · exact keeps_orderLoadLaw body s
  · exact .of_eq (orderReadLaw_st body s)
  · exact .of_eq (orderReadTriggers_st body s)

theorem State.keeps_queueAck (s : State) (seq : BitVec 8) (body : List Nat) : s.Keeps (s.queueAck seq body) :=
  State.keeps_of_fields rfl rfl rfl rfl rfl

theorem keeps_takeRead (code seq : BitVec 8) {f : State → OrderResult} (hf : ∀ s, State.Keeps s (f s).st) (s : State) :
    s.Keeps (takeRead code seq f s) := by
  rcases takeRead_cases code seq f s with ⟨-, h⟩ | ⟨-, h⟩ <;> rw [h]
  · exact State.Keeps.refl s
  · exact ((hf s).trans (State.keeps_queueAck _ _ _)).trans (State.keeps_offerEvents _ _)

theorem keeps_takeChange (code seq : BitVec 8) {f : State → OrderResult} (hf : ∀ s, State.Keeps s (f s).st)
    (s : State) : s.Keeps (takeChange code seq f s) := by
  have recorded : ∀ (t : State) (m : LastTaken), t.Keeps { t with lastTaken := some m } := fun t m =>
    State.keeps_of_fields rfl rfl rfl rfl rfl
  rcases takeChange_cases code seq f s with ⟨-, h⟩ | ⟨-, status, -, h⟩ | ⟨-, -, h⟩ <;> rw [h]
  · exact State.Keeps.refl s
  · exact s.keeps_queueAck _ _
  · exact (((hf s).trans (recorded _ _)).trans (State.keeps_queueAck _ _ _)).trans (State.keeps_offerEvents _ _)

theorem keeps_takeOrder (code seq : BitVec 8) (body : List Payload) (s : State) :
    s.Keeps (takeOrder code seq body s) := by
  unfold takeOrder
  split
  · unfold takeUnknown
    split
    · exact State.Keeps.refl s
    · exact s.keeps_queueAck _ _
  · rename_i f hf
    split
    · exact keeps_takeRead code seq (keeps_executeOrder hf) s
    · exact keeps_takeChange code seq (keeps_executeOrder hf) s

/-- Every command that is the taking of an order takes it by its code. -/
theorem exec_of_orderParts {c : Instr} {code seq : BitVec 8} {body : List Payload}
    (h : orderParts c = some (code, seq, body)) (s : State) :
    exec c s = .next (whenLocked (takeOrder code seq body) s) := by
  cases c <;> cases h <;> rfl

theorem keeps_whenLocked {f : State → State} (h : ∀ s : State, s.Keeps (f s)) (s : State) :
    s.Keeps (whenLocked f s) := by
  unfold whenLocked
  split
  · exact h s
  · exact State.Keeps.refl s

/-! The rows of the table -/

theorem keeps_takeComplete (order : Option Assembly) (s : State) : s.Keeps (takeComplete order s) := by
  cases order with
  | none => exact State.Keeps.refl s
  | some a => exact keeps_takeOrder a.code a.seq a.body s

theorem keeps_arriveGood (samples : SampleSet) (word : ControlWord) (s : State) :
    s.Keeps (arriveGood samples word s) := by
  have counted : s.Keeps
      { s with frameCount := s.frameCount + 1, nextBit := s.nextBit + 448, badRun := 0, lastGood := samples } :=
    State.keeps_of_fields rfl rfl rfl rfl rfl
  exact (counted.trans (keeps_frameWork samples (some word) _)).trans (keeps_takeComplete _ _)

theorem keeps_arriveLocked (line : LineFrame) (s : State) : s.Keeps (arriveLocked line s) := by
  have counted : ∀ lock confirm badRun frameCount nextBit waitingBits lineOut, s.Keeps
      { s with lock := lock, confirm := confirm, badRun := badRun, frameCount := frameCount, nextBit := nextBit
               waitingBits := waitingBits, lineOut := lineOut } :=
    fun _ _ _ _ _ _ _ => State.keeps_of_fields rfl rfl rfl rfl rfl
  unfold arriveLocked
  dsimp only
  split
  · exact keeps_arriveGood _ _ s
  · split
    · exact (counted _ _ _ _ _ _ _).trans (keeps_frameWork _ none _)
    · exact (counted _ _ _ _ _ _ _).trans (keeps_loseLink _)

theorem keeps_meetDeadline (s : State) : s.Keeps (meetDeadline s) := by
  unfold meetDeadline
  split
  · exact State.Keeps.refl s
  · rename_i a ha
    split
    · have discarded : s.Keeps { s with assembly := none } := State.keeps_of_fields rfl rfl rfl rfl rfl
      exact discarded.trans (State.keeps_offerEvents _ [_])
    · exact State.Keeps.refl s

theorem keeps_releaseLane (i : Fin 8) (s : State) : s.Keeps (releaseLane i s) := by
  unfold releaseLane
  split
  · have follows := (LaneWork.follows_applyReleaseOrder i (LaneWork.start s)).trans (LaneWork.follows_endIfDue i _)
    exact (follows.keeps fun h => storeCanonical_endIfDue (storeCanonical_applyReleaseOrder h i) i).trans
      (keeps_finishLanes [] _)
  · exact State.Keeps.refl s

theorem keeps_abortLane (i : Fin 8) (s : State) : s.Keeps (abortLane i s) := by
  unfold abortLane
  split
  · exact ((LaneWork.follows_applyAbortOrder i (LaneWork.start s)).keeps fun h => storeCanonical_applyAbortOrder h i).trans
      (keeps_finishLanes [] _)
  · exact State.Keeps.refl s

theorem keeps_reachEnd (i : Fin 8) (s : State) : s.Keeps (reachEnd i s) := by
  have ended : ∀ w : LaneWork, w.st.Keeps (finishLanes [] (endRecord i w)) := fun w =>
    ((LaneWork.follows_endRecord i w).keeps fun h => storeCanonical_endRecord h i).trans (keeps_finishLanes [] _)
  unfold reachEnd
  dsimp only
  split
  · exact ended (LaneWork.start s)
  · split
    · refine State.keeps_atNextCount (fun arrived => ?_) s
      exact ((LaneWork.follows_advanceLane i (LaneWork.start arrived)).keeps
        fun h => storeCanonical_advanceLane h i).trans (ended _)
    · exact State.Keeps.refl s

theorem keeps_deliverDue (s : State) : s.Keeps (deliverDue s) := by
  have applied : ∀ (ts : List LaneTrigger) (is : List (Fin 8)) (w : LaneWork),
      w.st.Keeps (is.foldl (fun w i => applyTriggers ts i w) w).st := by
    intro ts is
    induction is with
    | nil => exact fun w => State.Keeps.refl _
    | cons i is ih =>
      exact fun w => ((LaneWork.follows_applyTriggers ts i w).keeps
        fun h => storeCanonical_applyTriggers h ts i).trans (ih _)
  have dropped : ∀ s : State, s.Keeps s.dropDue := fun s => State.keeps_of_fields rfl rfl rfl rfl rfl
  refine State.keeps_atNextCount (fun arrived => ?_) s
  have started := (dropped arrived).trans
    (keeps_eachUnit (fun u => keeps_startIf (arrivalPlan arrived s.lastGood).delivered[u] u) _)
  exact (started.trans (applied _ _ (LaneWork.start _))).trans (keeps_finishLanes _ _)

theorem keeps_completeUnit (u : Fin 2) (s : State) : s.Keeps (completeUnit u s) := by
  unfold completeUnit
  dsimp only
  split
  · exact ((s.captureFollows_completeCapture u).keeps fun h => storeCanonical_completeCapture h u).trans
      (State.keeps_offerEvents _ _)
  · split
    · exact ((s.captureFollows_writeUnit s.lastGood u).keeps fun h => storeCanonical_writeUnit h s.lastGood u).trans
        (State.keeps_offerEvents _ _)
    · exact State.Keeps.refl s

theorem keeps_searchBits (bits : List Bool) (s : State) : s.Keeps (bits.foldl searchBit s) := by
  rw [searchBits_frame]
  exact State.keeps_of_fields rfl rfl rfl rfl rfl

theorem keeps_execConfirmFrame {line : LineFrame} {s t : State} (h : execConfirmFrame line s = .next t) : s.Keeps t := by
  have received : ∀ lock confirm badRun frameCount lastGood nextBit waitingBits, s.Keeps
      { s with lock := lock, confirm := confirm, badRun := badRun, frameCount := frameCount, lastGood := lastGood
               nextBit := nextBit, waitingBits := waitingBits, lineOut := line } :=
    fun _ _ _ _ _ _ _ => State.keeps_of_fields rfl rfl rfl rfl rfl
  unfold execConfirmFrame at h
  split at h
  · cases h; exact State.Keeps.refl s
  · split at h
    · dsimp only at h
      split at h
      · split at h
        · cases h; exact (received ..).trans (State.keeps_offerEvents _ [_])
        · cases h; exact received ..
      · cases h; exact received ..
    · cases h; exact received ..

/-- Every row of the table that is no order keeps the forms and ranges of the memory and the tables. -/
theorem keeps_exec_of_no_order {c : Instr} (hc : orderParts c = none) {s t : State} (h : exec c s = .next t) :
    s.Keeps t := by
  cases c with
  | powerOn straps => cases h; exact s.keeps_restart straps
  | resetAssert => cases h; exact (s.keeps_restart s.station).trans (State.keeps_of_fields rfl rfl rfl rfl rfl)
  | resetRelease straps =>
    simp only [exec, execResetRelease] at h
    split at h
    · cases h; exact (s.keeps_restart straps).trans (State.keeps_of_fields rfl rfl rfl rfl rfl)
    · cases h; exact State.Keeps.refl s
  | searchCandidate skipped candidate => cases h; exact keeps_searchBits _ s
  | confirmFrame line => exact keeps_execConfirmFrame h
  | frameArrival line =>
    simp only [exec, execFrameArrival] at h
    split at h
    · cases h; exact keeps_arriveLocked line s
    · cases h; exact State.keeps_of_fields rfl rfl rfl rfl rfl
  | timeout => cases h; exact keeps_whenLocked keeps_meetDeadline s
  | applyRelease i => cases h; exact keeps_whenLocked (keeps_releaseLane i) s
  | applyAbort i => cases h; exact keeps_whenLocked (keeps_abortLane i) s
  | recordEnd i => cases h; exact keeps_whenLocked (keeps_reachEnd i) s
  | triggerFallsDue => cases h; exact keeps_whenLocked keeps_deliverDue s
  | captureComplete u => cases h; exact keeps_whenLocked (keeps_completeUnit u) s
  | cueOutSent =>
    rw [exec] at h
    rcases execCueOutSent_cases s with ⟨e, -, h'⟩ | ⟨-, h'⟩ <;> rw [h'] at h <;> cases h
    · exact keeps_arriveGood _ _ s
    · exact State.Keeps.refl s
  | reportWordSent =>
    rw [exec] at h
    rcases execReportWordSent_cases s with ⟨r, -, h'⟩ | ⟨-, h'⟩ <;> rw [h'] at h <;> cases h
    · exact keeps_arriveGood _ _ s
    · exact State.Keeps.refl s
  | _ => cases hc

/-- Every command keeps the forms and ranges of the memory and the tables. -/
theorem keeps_exec {c : Instr} {s t : State} (h : exec c s = .next t) : s.Keeps t := by
  cases hc : orderParts c with
  | none => exact keeps_exec_of_no_order hc h
  | some parts =>
    obtain ⟨code, seq, body⟩ := parts
    rw [exec_of_orderParts hc] at h
    cases h
    exact keeps_whenLocked (keeps_takeOrder code seq body) s

/-- Settles O6: every operation keeps the forms and ranges (`State.Keeps`), so every command and every step does. -/
theorem stepKeepsMemoryAndTables : Obligations.StepKeepsMemoryAndTables := by
  intro s t h
  unfold step at h
  split at h
  · cases h
    exact State.Keeps.refl s
  · rename_i c rest _
    have queued : s.Keeps { s with pending := rest } := State.keeps_of_fields rfl rfl rfl rfl rfl
    exact queued.trans (keeps_exec h)

end Sys2Proof.Machine
end

section
/-! The state after reset, the orders that reach the Splice Table, and the tests of a load (R10 to R16, R25). -/

namespace Sys2Proof.Machine
-- As in the tests, one thread: the whole text is compiled under one limit of memory.
set_option Elab.async false

/-! The state after reset -/

@[simp] theorem State.reset_lane (i : Fin 8) : State.reset.lane i = Lane.idle := by
  simp [State.lane, State.reset, State.powerOn]

@[simp] theorem State.reset_unit (u : Fin 2) : State.reset.unit u = CaptureUnit.idle := by
  simp [State.unit, State.reset, State.powerOn]

theorem State.reset_slots (j : Fin 16) : State.reset.slots[j] = none := by
  simp [State.reset, State.powerOn]

@[simp] theorem State.reset_clip (c : Nat) : State.reset.clip c = Clip.freed := rfl

@[simp] theorem State.reset_voicesOf (c : Nat) : State.reset.voicesOf c = 0 := by
  simp [State.voicesOf, Lane.idle]

/-- Settles O5: every block is empty or IDLE, and every block of the store is on the Free Block List. -/
theorem resetStateIsSound : Obligations.ResetStateIsSound where
  canonical := ⟨rfl, rfl, rfl, nofun, nofun⟩
  reports := ⟨Nat.zero_le _, Nat.zero_le _, Nat.zero_le _, rfl⟩
  triggers := ⟨Nat.zero_le _, Nat.zero_le _⟩
  order := ⟨Nat.zero_le _, List.Pairwise.nil, nofun, fun _ => rfl⟩
  cueMap := ⟨Nat.zero_le _, List.nodup_nil, nofun⟩
  law := defaultLaw_le
  table := nofun
  lanes := ⟨fun i => .inl (State.reset_lane i), fun j i => by rw [State.reset_slots]; simp [Lane.idle]⟩
  receiver := ⟨nofun, fun _ => rfl, fun _ => rfl, Nat.zero_le _, Nat.zero_le _, fun h => absurd rfl h⟩
  quiet := fun _ => ⟨State.reset_lane, State.reset_slots, rfl, rfl, State.reset_unit, rfl⟩
  capture := ⟨nofun, fun u => .inl (State.reset_unit u), nofun⟩
  blocks := by simp [State.blocksSound, State.allBlocks, State.reset, State.powerOn]
  uses := ⟨fun c => by simp [Clip.freed], fun c => by simp [Clip.freed]⟩

/-! ERASE RECORD and READ RECORD (R15, R16) -/

theorem takeChange_refused {s : State} {code seq : BitVec 8} {f : State → OrderResult} {status : Status}
    (h : s.takesFresh code seq) (hf : f s = .refuse status s) :
    whenLocked (takeChange code seq f) s = s.answered code seq status := takeChange_answered h hf

theorem takeChange_done {s t : State} {code seq : BitVec 8} {f : State → OrderResult}
    (h : s.takesFresh code seq) (hf : f s = .done t) :
    whenLocked (takeChange code seq f) s = t.answered code seq .done := takeChange_answered h hf

theorem getD_of_length_eq_one {body : List Payload} (h : body.length = 1) : body = [body.getD 0 0] := by
  obtain ⟨w, rfl⟩ := List.length_eq_one_iff.mp h
  rfl

theorem orderEraseRecord_of_length {body : List Payload} (h : body.length ≠ 1) (s : State) :
    orderEraseRecord body s = .refuse .badLength s := by
  unfold orderEraseRecord
  split
  · exact absurd rfl h
  · rfl

theorem orderReadRecord_of_length {body : List Payload} (h : body.length ≠ 1) (s : State) :
    orderReadRecord body s = .refuse .badLength s := by
  unfold orderReadRecord
  split
  · exact absurd rfl h
  · rfl

/-- ERASE RECORD on a body of one word. -/
theorem orderEraseRecord_singleton (w : Payload) (s : State) :
    orderEraseRecord [w] s = if 255 < w.toNat then .refuse .badField s
      else if s.record w.toNat = none then .refuse .notFound s else .done (s.eraseRecord w.toNat) := by
  by_cases h : 255 < w.toNat
  · simp only [orderEraseRecord, fieldBelow_of_ge h, if_pos h]
  · simp only [orderEraseRecord, fieldBelow_of_lt (show w.toNat < 256 by omega), if_neg h, Option.isNone_iff_eq_none]

/-- READ RECORD on a body of one word. -/
theorem orderReadRecord_singleton (w : Payload) (s : State) :
    orderReadRecord [w] s = if 255 < w.toNat then .refuse .badField s
      else .read (((s.record w.toNat).map fun r => 1 :: r.words).getD [0]) s := by
  by_cases h : 255 < w.toNat
  · simp only [orderReadRecord, fieldBelow_of_ge h, if_pos h]
  · simp only [orderReadRecord, fieldBelow_of_lt (show w.toNat < 256 by omega), if_neg h]
    cases s.record w.toNat <;> rfl

/-- The words of a record field by field, what is absent by the number that stands for it (R14, R16). -/
theorem Record.words_eq (r : Record) : r.words = [r.length, r.start, r.repeats.val, r.rIn.val, r.rOut.val, r.under.val,
    (r.next.map Fin.val).getD 256, if r.reportStart then 1 else 0, if r.reportEnd then 1 else 0, r.tag.val,
    (r.endCue.map fun c => c.cue.val).getD 0, (r.endCue.map fun c => c.offset.val).getD 0,
    (r.endCue.map fun c => if c.forward then 1 else 0).getD 0, r.voices.length]
      ++ r.voices.flatMap fun v => [v.slot.val, v.clip.val] := by
  have hnext : indexOr256 r.next = (r.next.map Fin.val).getD 256 := by cases r.next <;> rfl
  unfold Record.words
  rw [hnext]
  cases r.endCue <;> rfl

/-- Settles O25, by the two orders on a body of one word and on any other. -/
theorem eraseAndReadRecord : Obligations.EraseAndReadRecord := by
  intro s seq body n
  refine ⟨fun fresh canonical => ⟨?_, State.record_eraseRecord canonical.2.1 n⟩, fun taken => ?_⟩
  · show Host.Outcome.next _ = _
    congr 1
    by_cases hlen : body.length = 1
    · have erased := orderEraseRecord_singleton (body.getD 0 0) s
      rw [← getD_of_length_eq_one hlen] at erased
      rw [if_neg (not_not.mpr hlen)]
      split_ifs at erased ⊢
      · exact takeChange_refused fresh erased
      · exact takeChange_refused fresh erased
      · exact takeChange_done fresh erased
    · rw [if_pos hlen]
      exact takeChange_refused fresh (orderEraseRecord_of_length hlen s)
  · show Host.Outcome.next _ = _
    congr 1
    by_cases hlen : body.length = 1
    · have read := orderReadRecord_singleton (body.getD 0 0) s
      rw [← getD_of_length_eq_one hlen] at read
      change orderReadRecord body s = if 255 < n then _ else .read (((s.record n).map fun r => 1 :: r.words).getD [0]) s
        at read
      rw [if_neg (not_not.mpr hlen)]
      split_ifs at read ⊢
      · exact takeRead_told taken read
      · rw [takeRead_told taken read]
        congr 1
        cases hr : s.record n with
        | none => rfl
        | some r => exact congrArg (1 :: ·) r.words_eq
    · rw [if_pos hlen]
      exact takeRead_told taken (orderReadRecord_of_length hlen s)

/-! The body of LOAD RECORD -/

/-- The record that the words of a LOAD RECORD body after its index carry. -/
def bodyRecord (body : List Payload) : Option Record :=
  recordFields (body.getD 1 0) (body.getD 2 0) (body.getD 3 0) (body.getD 4 0) (body.getD 5 0) (body.getD 6 0)
    (body.getD 7 0) (body.getD 8 0) (body.getD 9 0) (body.getD 10 0) (body.getD 11 0) (body.getD 12 0) (body.getD 13 0)
    (body.drop 15)

/-- A body of at least fifteen words is its fifteen fields and the words of its voices. -/
theorem eq_header_append {body : List Payload} (h : 15 ≤ body.length) :
    body = (List.range 15).map (fun n => body.getD n 0) ++ body.drop 15 := by
  refine List.ext_getElem? fun n => ?_
  rcases Nat.lt_or_ge n 15 with hn | hn
  · rw [List.getElem?_append_left (by simpa using hn)]
    simp [List.getElem?_range hn, List.getElem?_eq_getElem (show n < body.length by omega)]
  · rw [List.getElem?_append_right (by simpa using hn)]
    simp [List.getElem?_drop, hn]

theorem orderLoadRecord_of_short {body : List Payload} (h : body.length < 15) (s : State) :
    orderLoadRecord body s = .refuse .badLength s := by
  unfold orderLoadRecord
  split
  · simp only [List.length_cons] at h; omega
  · rfl

/-- LOAD RECORD on its fields: three tests of the shape, and then the fields (R13). -/
theorem orderLoadRecord_cons
    (index length start repeats rIn rOut under next reportStart reportEnd tag cue offset forward count : Payload)
    (voices : List Payload) (s : State) :
    orderLoadRecord (index :: length :: start :: repeats :: rIn :: rOut :: under :: next :: reportStart :: reportEnd
        :: tag :: cue :: offset :: forward :: count :: voices) s
      = if 8 < voices.length then .refuse .badLength s
        else if 4 < count.toNat then .refuse .badField s
        else if voices.length ≠ 2 * count.toNat then .refuse .badLength s
        else ((fieldBelow 256 index).bind fun i =>
          (recordFields length start repeats rIn rOut under next reportStart reportEnd tag cue offset forward voices).map
            fun r => OrderResult.done (s.setRecord i.val r)).getD (.refuse .badField s) := by
  unfold orderLoadRecord
  dsimp only
  generalize recordFields length start repeats rIn rOut under next reportStart reportEnd tag cue offset forward voices = o
  cases fieldBelow 256 index <;> cases o <;> rfl

/-- LOAD RECORD on a body that has all its fields, by the place of each word. -/
theorem orderLoadRecord_of_header {body : List Payload} (h : 15 ≤ body.length) (s : State) :
    orderLoadRecord body s =
      if 8 < (body.drop 15).length then .refuse .badLength s
      else if 4 < (body.getD 14 0).toNat then .refuse .badField s
      else if (body.drop 15).length ≠ 2 * (body.getD 14 0).toNat then .refuse .badLength s
      else ((fieldBelow 256 (body.getD 0 0)).bind fun i =>
        (bodyRecord body).map fun r => OrderResult.done (s.setRecord i.val r)).getD (.refuse .badField s) :=
  (congrArg (orderLoadRecord · s) (eq_header_append h)).trans (orderLoadRecord_cons ..)

theorem getD_drop (body : List Payload) (m n : Nat) : (body.drop m).getD n 0 = body.getD (m + n) 0 := by
  simp [List.getD_eq_getElem?_getD]

/-! When the fields of a body are in their ranges -/

theorem exists_fieldBelow_iff {n : Nat} {w : Payload} : (∃ i, fieldBelow n w = some i) ↔ w.toNat < n := by
  unfold fieldBelow
  split <;> simp [*]

theorem exists_flagField_iff {w : Payload} : (∃ b, flagField w = some b) ↔ w.toNat ≤ 1 := by
  simp only [flagField_eq_some]
  constructor
  · rintro ⟨b, h⟩
    cases b <;> simp [h, flagCode]
  · intro h
    rcases Nat.le_one_iff_eq_zero_or_eq_one.mp h with h | h
    · exact ⟨false, h⟩
    · exact ⟨true, h⟩

theorem exists_linkField_iff {w : Payload} : (∃ link, linkField w = some link) ↔ w.toNat ≤ 256 := by
  simp only [linkField_eq_some]
  constructor
  · rintro ⟨link, h⟩
    cases link with
    | none => exact Nat.le_of_eq h
    | some i => rw [h]; exact Nat.le_of_lt i.isLt
  · intro h
    rcases Nat.eq_or_lt_of_le h with h | h
    · exact ⟨none, h⟩
    · exact ⟨some ⟨_, h⟩, rfl⟩

theorem exists_endCueFields_iff {cue offset forward : Payload} :
    (∃ e, endCueFields cue offset forward = some e) ↔ cue.toNat < 4096 ∧ offset.toNat < 4096 ∧ forward.toNat ≤ 1 := by
  simp only [endCueFields_eq_some, ← exists_fieldBelow_iff, ← exists_flagField_iff]
  constructor
  · rintro ⟨e, c, o, f, hc, ho, hf, -⟩
    exact ⟨⟨c, hc⟩, ⟨o, ho⟩, ⟨f, hf⟩⟩
  · rintro ⟨⟨c, hc⟩, ⟨o, ho⟩, ⟨f, hf⟩⟩
    exact ⟨_, c, o, f, hc, ho, hf, rfl⟩

/-- The voices read from a body, by the place of each word. -/
theorem voiceFields_pairs : ∀ {ws : List Payload} {vs : List Voice}, voiceFields ws = some vs →
    vs.map (fun v => (v.slot.val, v.clip.val))
      = (List.range vs.length).map fun n => ((ws.getD (2 * n) 0).toNat, (ws.getD (2 * n + 1) 0).toNat)
  | _, [], _ => rfl
  | [], _ :: _, h => by simp [voiceFields] at h
  | [_], _ :: _, h => by simp [voiceFields] at h
  | slot :: clip :: rest, v :: vs, h => by
    obtain ⟨hj, hc, hvs⟩ := voiceFields_cons_eq_some.mp h
    rw [List.length_cons, List.range_succ_eq_map, List.map_cons, List.map_cons, List.map_map, voiceFields_pairs hvs]
    refine congrArg₂ List.cons ?_ (List.map_congr_left fun n _ => rfl)
    exact congrArg₂ Prod.mk (fieldBelow_eq_some.mp hj).symm (fieldBelow_eq_some.mp hc).symm

theorem exists_voiceFields : ∀ {n : Nat} {ws : List Payload}, ws.length = 2 * n →
    (∀ k < n, (ws.getD (2 * k) 0).toNat < 16 ∧ (ws.getD (2 * k + 1) 0).toNat < 512) →
    ∃ vs, vs.length = n ∧ voiceFields ws = some vs
  | 0, ws, hlen, _ => ⟨[], rfl, by rw [List.length_eq_zero_iff.mp hlen]; rfl⟩
  | n + 1, [], hlen, _ => by simp at hlen
  | n + 1, [_], hlen, _ => by simp at hlen; omega
  | n + 1, slot :: clip :: rest, hlen, h => by
    obtain ⟨hj, hc⟩ := h 0 (Nat.succ_pos n)
    obtain ⟨vs, hn, hvs⟩ := exists_voiceFields (n := n) (ws := rest) (by simp at hlen; omega)
      fun k hk => h (k + 1) (Nat.succ_lt_succ hk)
    exact ⟨{ slot := ⟨_, hj⟩, clip := ⟨_, hc⟩ } :: vs, by rw [List.length_cons, hn],
      voiceFields_cons_eq_some.mpr ⟨fieldBelow_of_lt hj, fieldBelow_of_lt hc, hvs⟩⟩

/-- The distinct-slot condition, by the numbers of the slots (R2). -/
theorem nodup_slots_iff {vs : List Voice} {g : Nat → Nat}
    (h : vs.map (fun v => v.slot.val) = (List.range vs.length).map g) :
    (vs.map Voice.slot).Nodup ↔ ∀ k < vs.length, ∀ m < k, g k ≠ g m := by
  rw [← List.nodup_map_iff Fin.val_injective, List.map_map]
  change (vs.map fun v => v.slot.val).Nodup ↔ _
  rw [h, List.nodup_map_iff_inj_on List.nodup_range]
  simp only [List.mem_range]
  constructor
  · intro inj k hk m hm heq
    have := inj k hk m (by omega) heq
    omega
  · intro distinct x hx y hy heq
    rcases Nat.lt_trichotomy x y with hlt | rfl | hlt
    · exact absurd heq.symm (distinct y hy x hlt)
    · rfl
    · exact absurd heq (distinct x hx y hlt)

/-- The voices read from a body, by the place of each word in the body. -/
theorem bodyVoices_pairs {body : List Payload} {vs : List Voice} (h : voiceFields (body.drop 15) = some vs) :
    let f : Nat → Nat := fun n => (body.getD n 0).toNat
    vs.map (fun v => (v.slot.val, v.clip.val))
      = (List.range vs.length).map fun v => (f (15 + 2 * v), f (16 + 2 * v)) := by
  intro f
  rw [voiceFields_pairs h]
  refine List.map_congr_left fun n _ => ?_
  rw [getD_drop, getD_drop, show 15 + (2 * n + 1) = 16 + 2 * n by omega]

/-- The voices of a body are read, and pass the distinct-slot condition, just when each number is in its range and no slot
number comes twice. -/
theorem exists_bodyVoices_iff {body : List Payload} {n : Nat} (hlen : (body.drop 15).length = 2 * n) :
    let f : Nat → Nat := fun n => (body.getD n 0).toNat
    (∃ vs, voiceFields (body.drop 15) = some vs ∧ (vs.map Voice.slot).Nodup)
      ↔ (∀ v < n, f (15 + 2 * v) ≤ 15 ∧ f (16 + 2 * v) ≤ 511) ∧ ∀ v < n, ∀ w < v, f (15 + 2 * v) ≠ f (15 + 2 * w) := by
  intro f
  have distinct : ∀ {vs : List Voice}, vs.length = n → voiceFields (body.drop 15) = some vs →
      ((vs.map Voice.slot).Nodup ↔ ∀ v < n, ∀ w < v, f (15 + 2 * v) ≠ f (15 + 2 * w)) := by
    rintro vs rfl hvs
    refine nodup_slots_iff (g := fun v => f (15 + 2 * v)) ?_
    have slots := congrArg (List.map Prod.fst) (bodyVoices_pairs hvs)
    rw [List.map_map, List.map_map] at slots
    exact slots
  constructor
  · rintro ⟨vs, hvs, hnodup⟩
    have hn : vs.length = n := by have := length_of_voiceFields hvs; omega
    refine ⟨fun v hv => ?_, (distinct hn hvs).mp hnodup⟩
    have hlt : v < vs.length := hn ▸ hv
    have pair := congrArg (·[v]?) (bodyVoices_pairs hvs)
    simp only [List.getElem?_map, List.getElem?_eq_getElem hlt, List.getElem?_range hlt, Option.map_some,
      Option.some.injEq, Prod.mk.injEq] at pair
    have := vs[v].slot.isLt
    have := vs[v].clip.isLt
    simp only [f]
    omega
  · rintro ⟨hrange, hdistinct⟩
    obtain ⟨vs, hn, hvs⟩ := exists_voiceFields hlen fun k hk => by
      rw [getD_drop, getD_drop, show 15 + (2 * k + 1) = 16 + 2 * k by omega]
      exact (hrange k hk).imp Nat.lt_succ_of_le Nat.lt_succ_of_le
    exact ⟨vs, hvs, (distinct hn hvs).mpr hdistinct⟩

/-- What a record read from a body holds, by the place of each word (R14). -/
theorem bodyRecord_values {body : List Payload} {r : Record} (h : bodyRecord body = some r) :
    let f : Nat → Nat := fun n => (body.getD n 0).toNat
    r.length = f 1 ∧ r.start = f 2 ∧ r.repeats.val = f 3 ∧ r.rIn.val = f 4 ∧ r.rOut.val = f 5 ∧ r.under.val = f 6
      ∧ r.next.map Fin.val = (if f 7 = 256 then none else some (f 7))
      ∧ r.reportStart = decide (f 8 = 1) ∧ r.reportEnd = decide (f 9 = 1) ∧ r.tag.val = f 10
      ∧ (r.endCue.map fun c => (c.cue.val, c.offset.val, c.forward))
        = (if f 11 = 0 then none else some (f 11, f 12, decide (f 13 = 1)))
      ∧ r.voices.map (fun v => (v.slot.val, v.clip.val))
        = (List.range r.voices.length).map fun v => (f (15 + 2 * v), f (16 + 2 * v)) := by
  intro f
  obtain ⟨hlength, hstart, hrepeats, hrIn, hrOut, hunder, hnext, hrs, hre, htag, hcue, hvs, -, -⟩ :=
    recordFields_eq_some.mp h
  have flag : ∀ {n b}, flagField (body.getD n 0) = some b → b = decide (f n = 1) := by
    intro n b hb
    simp only [f, flagField_eq_some.mp hb]
    cases b <;> rfl
  refine ⟨hlength.symm, hstart.symm, (fieldBelow_eq_some.mp hrepeats).symm, (fieldBelow_eq_some.mp hrIn).symm,
    (fieldBelow_eq_some.mp hrOut).symm, (fieldBelow_eq_some.mp hunder).symm, ?_, flag hrs, flag hre,
    (fieldBelow_eq_some.mp htag).symm, ?_, ?_⟩
  · simp only [f, linkField_eq_some.mp hnext]
    cases r.next with
    | none => rfl
    | some i => exact (if_neg (Nat.ne_of_lt i.isLt)).symm
  · obtain ⟨c, o, b, hc, ho, hb, he⟩ := endCueFields_eq_some.mp hcue
    rw [he, ← flag hb]
    simp only [f, fieldBelow_eq_some.mp hc, fieldBelow_eq_some.mp ho]
    split <;> rfl
  · exact bodyVoices_pairs hvs

theorem length_of_bodyRecord {body : List Payload} {r : Record} (h : bodyRecord body = some r) :
    (body.drop 15).length = 2 * r.voices.length := by
  obtain ⟨-, -, -, -, -, -, -, -, -, -, -, hvs, -, -⟩ := recordFields_eq_some.mp h
  exact length_of_voiceFields hvs

/-- A body carries a record just when every field lies in its range and no two voices name one slot (R14). -/
theorem exists_bodyRecord_iff {body : List Payload} {n : Nat} (hlen : (body.drop 15).length = 2 * n) :
    let f : Nat → Nat := fun n => (body.getD n 0).toNat
    (∃ r, bodyRecord body = some r) ↔ f 1 ≠ 0 ∧ f 3 ≤ 255 ∧ f 4 ≤ 1023 ∧ f 5 ≤ 1023 ∧ f 6 ≤ 63 ∧ f 7 ≤ 256 ∧ f 8 ≤ 1
      ∧ f 9 ≤ 1 ∧ f 10 ≤ 255 ∧ f 11 ≤ 4095 ∧ f 12 ≤ 4095 ∧ f 13 ≤ 1
      ∧ (∀ v < n, f (15 + 2 * v) ≤ 15 ∧ f (16 + 2 * v) ≤ 511)
      ∧ ∀ v < n, ∀ w < v, f (15 + 2 * v) ≠ f (15 + 2 * w) := by
  intro f
  constructor
  · rintro ⟨r, h⟩
    obtain ⟨hlength, -, hrepeats, hrIn, hrOut, hunder, hnext, hrs, hre, htag, hcue, hvs, hne, hnodup⟩ :=
      recordFields_eq_some.mp h
    obtain ⟨h11, h12, h13⟩ := exists_endCueFields_iff.mp ⟨_, hcue⟩
    exact ⟨fun h0 => hne (hlength.symm.trans h0), Nat.le_of_lt_succ (exists_fieldBelow_iff.mp ⟨_, hrepeats⟩),
      Nat.le_of_lt_succ (exists_fieldBelow_iff.mp ⟨_, hrIn⟩), Nat.le_of_lt_succ (exists_fieldBelow_iff.mp ⟨_, hrOut⟩),
      Nat.le_of_lt_succ (exists_fieldBelow_iff.mp ⟨_, hunder⟩), exists_linkField_iff.mp ⟨_, hnext⟩,
      exists_flagField_iff.mp ⟨_, hrs⟩, exists_flagField_iff.mp ⟨_, hre⟩,
      Nat.le_of_lt_succ (exists_fieldBelow_iff.mp ⟨_, htag⟩), Nat.le_of_lt_succ h11, Nat.le_of_lt_succ h12, h13,
      (exists_bodyVoices_iff hlen).mp ⟨_, hvs, hnodup⟩⟩
  · rintro ⟨h1, h3, h4, h5, h6, h7, h8, h9, h10, h11, h12, h13, hvoices⟩
    obtain ⟨repeats, hrepeats⟩ := exists_fieldBelow_iff.mpr (Nat.lt_succ_of_le h3)
    obtain ⟨rIn, hrIn⟩ := exists_fieldBelow_iff.mpr (Nat.lt_succ_of_le h4)
    obtain ⟨rOut, hrOut⟩ := exists_fieldBelow_iff.mpr (Nat.lt_succ_of_le h5)
    obtain ⟨under, hunder⟩ := exists_fieldBelow_iff.mpr (Nat.lt_succ_of_le h6)
    obtain ⟨next, hnext⟩ := exists_linkField_iff.mpr h7
    obtain ⟨reportStart, hrs⟩ := exists_flagField_iff.mpr h8
    obtain ⟨reportEnd, hre⟩ := exists_flagField_iff.mpr h9
    obtain ⟨tag, htag⟩ := exists_fieldBelow_iff.mpr (Nat.lt_succ_of_le h10)
    obtain ⟨endCue, hcue⟩ := exists_endCueFields_iff.mpr ⟨Nat.lt_succ_of_le h11, Nat.lt_succ_of_le h12, h13⟩
    obtain ⟨voices, hvs, hnodup⟩ := (exists_bodyVoices_iff hlen).mpr hvoices
    exact ⟨{ length := f 1, start := f 2, repeats, rIn, rOut, under, next, reportStart, reportEnd, tag, endCue, voices },
      recordFields_eq_some.mpr
        ⟨rfl, rfl, hrepeats, hrIn, hrOut, hunder, hnext, hrs, hre, htag, hcue, hvs, h1, hnodup⟩⟩

/-- Settles O23: the three tests of the shape stand in `orderLoadRecord_of_header`; the fields in `exists_bodyRecord_iff`. -/
theorem loadRecordTestsAndLoads : Obligations.LoadRecordTestsAndLoads := by
  intro s seq body fresh f shaped fields
  have run : ∀ {t}, whenLocked (takeChange 3 seq (orderLoadRecord body)) s = t →
      exec (.loadRecord seq body) s = .next t := fun h => congrArg Host.Outcome.next h
  have hdrop : (body.drop 15).length = body.length - 15 := List.length_drop
  refine ⟨fun hshape => run ?_, fun hshape hcount => run ?_, fun hshape hcount hlen => run ?_,
    fun hshape hcount hlen hfields => run ?_, fun hshape hcount hlen hfields => ?_,
    fun r j => State.record_setRecord s (f 0) j r⟩
  · rcases Nat.lt_or_ge body.length 15 with hshort | hlong
    · exact takeChange_refused fresh (orderLoadRecord_of_short hshort s)
    · refine takeChange_refused fresh ?_
      rw [orderLoadRecord_of_header hlong, if_pos (by omega)]
  · refine takeChange_refused fresh ?_
    rw [orderLoadRecord_of_header hshape.1, if_neg (by omega), if_pos hcount]
  · refine takeChange_refused fresh ?_
    rw [orderLoadRecord_of_header hshape.1, if_neg (by omega), if_neg (Nat.not_lt.mpr hcount),
      if_pos (by simp only [f] at hlen; omega)]
  all_goals
    have hvoices : (body.drop 15).length = 2 * f 14 := by omega
    have loaded := orderLoadRecord_of_header hshape.1 s
    rw [if_neg (by omega), if_neg (Nat.not_lt.mpr hcount), if_neg (not_not.mpr hvoices)] at loaded
    have carried := exists_bodyRecord_iff hvoices
  · refine takeChange_refused fresh (loaded.trans ?_)
    by_cases hindex : f 0 ≤ 255
    · have none : bodyRecord body = none := Option.eq_none_iff_forall_ne_some.mpr fun r hr =>
        hfields ⟨hindex, carried.mp ⟨r, hr⟩⟩
      rw [none, fieldBelow_of_lt (Nat.lt_succ_of_le hindex)]
      rfl
    · rw [fieldBelow_of_ge (Nat.lt_of_not_le hindex)]
      rfl
  · obtain ⟨hindex, hrest⟩ := hfields
    obtain ⟨r, hr⟩ := carried.mpr hrest
    obtain ⟨h1, h2, h3, h4, h5, h6, h7, h8, h9, h10, h11, hpairs⟩ := bodyRecord_values hr
    have hcountVoices : r.voices.length = f 14 := by have := length_of_bodyRecord hr; omega
    rw [hr, fieldBelow_of_lt (Nat.lt_succ_of_le hindex)] at loaded
    exact ⟨r, run (takeChange_done fresh loaded), h1, h2, h3, h4, h5, h6, h7, h8, h9, h10, h11, hcountVoices ▸ hpairs⟩

/-! A record's own words -/

theorem toNat_payload {n : Nat} (h : n < 16777216) : (BitVec.ofNat 24 n).toNat = n := Nat.mod_eq_of_lt h

theorem linkField_ofNat (link : Option (Fin 256)) :
    linkField (BitVec.ofNat 24 ((link.map Fin.val).getD 256)) = some link := by
  rw [linkField_eq_some]
  cases link with
  | none => rfl
  | some i => exact toNat_payload (Nat.lt_trans i.isLt (by decide))

theorem flagField_ite (b : Bool) : flagField (BitVec.ofNat 24 (if b then 1 else 0)) = some b := flagField_ofNat b

/-- An end cue's own words, zeros for an absent one, are read as it, since no end cue has cue number 0 (R9, R14). -/
theorem endCueFields_ofNat {e : Option EndCue} (h : ∀ c, e = some c → c.cue ≠ 0) :
    endCueFields (BitVec.ofNat 24 ((e.map fun c => c.cue.val).getD 0))
      (BitVec.ofNat 24 ((e.map fun c => c.offset.val).getD 0))
      (BitVec.ofNat 24 ((e.map fun c => if c.forward then 1 else 0).getD 0)) = some e := by
  rw [endCueFields_eq_some]
  cases e with
  | none => exact ⟨0, 0, false, rfl, rfl, rfl, rfl⟩
  | some c =>
    have hne : ¬c.cue.val = 0 := fun h0 => h c rfl (Fin.ext h0)
    exact ⟨c.cue, c.offset, c.forward, fieldBelow_ofNat _ (by decide), fieldBelow_ofNat _ (by decide),
      flagField_ite _, (if_neg hne).symm⟩

theorem voiceFields_toPayloads (vs : List Voice) :
    voiceFields (toPayloads (vs.flatMap fun v => [v.slot.val, v.clip.val])) = some vs := by
  induction vs with
  | nil => rfl
  | cons v vs ih =>
    exact voiceFields_cons_eq_some.mpr ⟨fieldBelow_ofNat _ (by decide), fieldBelow_ofNat _ (by decide), ih⟩

/-- A sound record's own words, sent as LOAD RECORD of an index, load it there (R14, R16). -/
theorem orderLoadRecord_words (index : Fin 256) {r : Record} (h : r.sound) (s : State) :
    orderLoadRecord (toPayloads (index.val :: r.words)) s = .done (s.setRecord index.val r) := by
  obtain ⟨hpos, hlength, hstart, hvoices, hnodup, hcue⟩ := h
  have body : toPayloads (index.val :: r.words) = _ := congrArg (fun ws => toPayloads (index.val :: ws)) r.words_eq
  have read := voiceFields_toPayloads r.voices
  have hlen := length_of_voiceFields read
  have count := toNat_payload (show r.voices.length < 16777216 by omega)
  have carried := (recordFields_eq_some (r := r)).mpr ⟨toNat_payload hlength, toNat_payload hstart,
    fieldBelow_ofNat _ (by decide), fieldBelow_ofNat _ (by decide), fieldBelow_ofNat _ (by decide),
    fieldBelow_ofNat _ (by decide), linkField_ofNat _, flagField_ite _, flagField_ite _, fieldBelow_ofNat _ (by decide),
    endCueFields_ofNat hcue, read, Nat.ne_of_gt hpos, hnodup⟩
  rw [body]
  refine (orderLoadRecord_cons (voices := toPayloads (r.voices.flatMap fun v => [v.slot.val, v.clip.val])) ..).trans ?_
  rw [if_neg, if_neg, if_neg, carried, fieldBelow_ofNat index (by decide)]
  · rfl
  · rw [count]; exact not_not.mpr hlen
  · rw [count]; exact Nat.not_lt.mpr hvoices
  · omega

/-- Settles O24: `orderLoadRecord_words` for the load, and the read of what it has put into the table. -/
theorem loadedRecordIsReadBack : Obligations.LoadedRecordIsReadBack := by
  intro s seq again index r sound fresh room
  refine ⟨congrArg Host.Outcome.next (takeChange_done fresh (orderLoadRecord_words index sound s)),
    congrArg Host.Outcome.next (takeRead_told ⟨fresh.1.1, ?_⟩ ?_)⟩
  · simp only [State.answered, State.setRecord_reports, List.length_append, List.length_singleton]
    omega
  · have loaded : ((s.setRecord index.val r).answered 3 seq .done).record index.val = some r := by
      change (s.setRecord index.val r).record index.val = some r
      rw [State.record_setRecord, if_pos rfl]
    have read := orderReadRecord_singleton (BitVec.ofNat 24 index.val) ((s.setRecord index.val r).answered 3 seq .done)
    rw [toNat_payload (by omega), if_neg (by omega), loaded] at read
    exact read

/-! The tests of a load (R25) and the effective length (R10) -/

/-- The smallest of a number and of one number for each voice. -/
theorem foldl_min_voices (g : Voice → Nat) (vs : List Voice) (n : Nat) :
    let m := vs.foldl (fun e v => min e (g v)) n
    m ≤ n ∧ (∀ v ∈ vs, m ≤ g v) ∧ (m = n ∨ ∃ v ∈ vs, m = g v) := by
  induction vs generalizing n with
  | nil => exact ⟨Nat.le_refl n, nofun, .inl rfl⟩
  | cons v vs ih =>
    obtain ⟨hle, hall, hex⟩ := ih (min n (g v))
    refine ⟨hle.trans (Nat.min_le_left ..), fun w hw => ?_, ?_⟩
    · rcases List.mem_cons.mp hw with rfl | hw
      · exact hle.trans (Nat.min_le_right ..)
      · exact hall w hw
    · rcases hex with hex | ⟨w, hw, hex⟩
      · rcases Nat.le_total n (g v) with h | h
        · exact .inl (hex.trans (Nat.min_eq_left h))
        · exact .inr ⟨v, List.mem_cons_self, hex.trans (Nat.min_eq_right h)⟩
      · exact .inr ⟨w, List.mem_cons_of_mem v hw, hex⟩

/-- The effective length is the smallest of N and of what each voice's clip has from the start offset on (R10). -/
theorem effectiveLength_spec (s : State) (r : Record) :
    effectiveLength s r ≤ r.length
      ∧ (∀ v ∈ r.voices, effectiveLength s r ≤ (s.clip v.clip.val).length - r.start)
      ∧ (effectiveLength s r = r.length
        ∨ ∃ v ∈ r.voices, effectiveLength s r = (s.clip v.clip.val).length - r.start) :=
  foldl_min_voices (fun v => (s.clip v.clip.val).length - r.start) r.voices r.length

/-- The effective length is 0 just when a voice has no clip sample at its first frame (R11). -/
theorem effectiveLength_eq_zero_iff (s : State) {r : Record} (h : 1 ≤ r.length) :
    effectiveLength s r = 0 ↔ ∃ v ∈ r.voices, (s.clip v.clip.val).length ≤ r.start := by
  obtain ⟨-, hall, hex⟩ := effectiveLength_spec s r
  constructor
  · intro h0
    rcases hex with hex | ⟨v, hv, hex⟩
    · omega
    · exact ⟨v, hv, by omega⟩
  · rintro ⟨v, hv, hlen⟩
    have := hall v hv
    omega

theorem any_not_ready_iff (s : State) (vs : List Voice) :
    (vs.any fun v => (s.clip v.clip.val).state != .ready) = true ↔ ∃ v ∈ vs, (s.clip v.clip.val).state ≠ .ready := by
  simp [List.any_eq_true]

theorem any_conflict_iff (s : State) (i : Fin 8) (vs : List Voice) :
    (vs.any fun v => s.slots[v.slot] != none && s.slots[v.slot] != some i) = true
      ↔ ∃ v ∈ vs, ∃ owner, s.slots[v.slot] = some owner ∧ owner ≠ i := by
  rw [List.any_eq_true]
  refine exists_congr fun v => and_congr_right fun _ => ?_
  cases s.slots[v.slot] with
  | none => simp
  | some owner => simp

/-- The load of a LOADED record: its tests in order (R25). -/
theorem loadTest_of_record {s : State} {index : Fin 256} {r : Record} (h : s.record index.val = some r) (i : Fin 8) :
    loadTest s i index =
      if r.voices.any fun v => (s.clip v.clip.val).state != .ready then .error .clipNotReady
      else if effectiveLength s r = 0 then .error .void
      else if r.voices.any fun v => s.slots[v.slot] != none && s.slots[v.slot] != some i then .error .slotConflict
      else .ok r := by
  unfold loadTest
  rw [h]

theorem State.tableSound.record {s : State} (h : s.tableSound) {index : Nat} {r : Record} (hr : s.record index = some r) :
    r.sound := h _ (mem_of_sparseFind hr)

/-- Settles O48: each test as the statement has it, and then the effective length by `effectiveLength_spec`. -/
theorem loadTestsInOrder : Obligations.LoadTestsInOrder := by
  intro s i index table
  refine ⟨fun h => by unfold loadTest; rw [h], fun r hr => ?_⟩
  intro unready void conflict
  have pos : 1 ≤ r.length := (table.record hr).1
  have tests := loadTest_of_record hr i
  have hunready := any_not_ready_iff s r.voices
  have hvoid := effectiveLength_eq_zero_iff s pos
  have hconflict := any_conflict_iff s i r.voices
  refine ⟨fun u => ?_, fun u v => ?_, fun u v c => ?_, fun u v c => ?_, fun v => ?_⟩
  · rw [tests, if_pos (hunready.mpr u)]
  · rw [tests, if_neg (mt hunready.mp u), if_pos (hvoid.mpr v)]
  · rw [tests, if_neg (mt hunready.mp u), if_neg (mt hvoid.mp v), if_pos (hconflict.mpr c)]
  · rw [tests, if_neg (mt hunready.mp u), if_neg (mt hvoid.mp v), if_neg (mt hconflict.mp c)]
  · obtain ⟨hle, hall, hex⟩ := effectiveLength_spec s r
    have hpos : 1 ≤ effectiveLength s r := Nat.pos_of_ne_zero (mt hvoid.mp v)
    refine ⟨hpos, hle, fun w hw => ?_, hex.imp_right ?_⟩
    · have := hall w hw
      omega
    · rintro ⟨w, hw, heq⟩
      exact ⟨w, hw, by omega⟩

end Sys2Proof.Machine
end

section
/-! The end of a record: what its claims, its reports and its end cue become, and the RECORD_END row (R9, R29 to R31, R76,
R113, R118, R119). -/

namespace Sys2Proof.Machine
-- As in the tests, one thread: the whole text is compiled under one limit of memory.
set_option Elab.async false

/-! The reports that offers leave (R184 to R186) -/

/-- `t` holds the Report Queue of `s`. -/
def State.SameReports (s t : State) : Prop := t.reports = s.reports ∧ t.lost = s.lost ∧ t.eventSeq = s.eventSeq

theorem State.SameReports.roomForEvent {s t : State} (h : s.SameReports t) : t.roomForEvent = s.roomForEvent := by
  unfold State.roomForEvent State.eventCount
  rw [h.1]

theorem State.SameReports.queueEvent {s t : State} (h : s.SameReports t) (e : Event) :
    (s.queueEvent e).SameReports (t.queueEvent e) := by
  obtain ⟨hr, hl, hs⟩ := h
  exact ⟨by simp only [State.queueEvent_reports, hr, hs], hl, by simp only [State.queueEvent_eventSeq, hs]⟩

theorem State.SameReports.judgeEvent {s t : State} (h : s.SameReports t) (e : Event) :
    (s.judgeEvent e).SameReports (t.judgeEvent e) := by
  unfold State.judgeEvent
  rw [h.roomForEvent]
  split
  · exact h.queueEvent e
  · obtain ⟨hr, hl, hs⟩ := h
    exact ⟨hr, by simp only [hl], hs⟩

theorem State.SameReports.offerEvent {s t : State} (h : s.SameReports t) (e : Event) :
    (s.offerEvent e).SameReports (t.offerEvent e) := by
  unfold State.offerEvent
  rw [h.roomForEvent, h.2.1]
  split
  · exact h.judgeEvent e
  · split
    · obtain ⟨hr, -, hs⟩ := h.queueEvent (.lostEvents s.lost)
      refine State.SameReports.judgeEvent ?_ e
      exact ⟨hr, rfl, hs⟩
    · exact h.judgeEvent e

/-- What offers leave in the Report Queue depends on the Report Queue alone. -/
theorem State.SameReports.offerEvents {s t : State} (h : s.SameReports t) (es : List Event) :
    (s.offerEvents es).SameReports (t.offerEvents es) := by
  induction es generalizing s t with
  | nil => exact h
  | cons e es ih => exact ih (h.offerEvent e)

/-! The clips that an end gives back (R67, R76) -/

/-- The listed clips that pass a test which a FREE clip fails are the clips that pass it. -/
theorem State.mem_filter_clips {s : State} (h : sparseSorted s.clips = true) {p : Nat × Clip → Bool}
    (hp : ∀ c, p (c, Clip.freed) = false) (c : Nat) :
    c ∈ (s.clips.filter p).map Prod.fst ↔ p (c, s.clip c) = true := by
  rw [List.mem_map]
  constructor
  · rintro ⟨q, hq, rfl⟩
    obtain ⟨hmem, hpass⟩ := List.mem_filter.mp hq
    rwa [State.clip_of_mem h hmem]
  · intro hpass
    have listed : s.clip c ≠ Clip.freed := fun hf => by rw [hf, hp c] at hpass; cases hpass
    exact ⟨_, List.mem_filter.mpr ⟨State.mem_of_clip listed, hpass⟩, rfl⟩

theorem State.mem_doomedUnused {s : State} (h : sparseSorted s.clips = true) (c : Nat) :
    c ∈ s.doomedUnused ↔ (s.clip c).state = .doomed ∧ (s.clip c).uses = 0 :=
  (State.mem_filter_clips h (fun _ => rfl) c).trans (by simp)

theorem State.mem_clipsFreedBy {s : State} (h : sparseSorted s.clips = true) (r : Record) (c : Nat) :
    c ∈ s.clipsFreedBy r
      ↔ (s.clip c).state = .doomed ∧ (s.clip c).uses = r.voices.countP fun v => v.clip.val == c :=
  (State.mem_filter_clips h (fun _ => rfl) c).trans (by simp)

/-- Numbers picked from a sorted table rise strictly. -/
theorem pairwise_lt_filter_fst {α : Type} {l : List (Nat × α)} (h : sparseSorted l = true) (p : Nat × α → Bool) :
    ((l.filter p).map Prod.fst).Pairwise (· < ·) := by
  have rising : l.Pairwise fun a b => a.1 < b.1 := by
    induction l with
    | nil => exact List.Pairwise.nil
    | cons q l ih => exact List.Pairwise.cons (sparseSorted_head_lt h) (ih (sparseSorted_tail h))
  exact List.pairwise_map.mpr (rising.filter p)

/-- A row of different clips made FREE returns the chains they have, in the order of the row (R67). -/
theorem State.freeBlocks_freeClips {s : State} (h : sparseSorted s.clips = true) {cs : List Nat} (hcs : cs.Nodup) :
    (cs.foldl State.freeClip s).freeBlocks = s.freeBlocks ++ cs.flatMap fun c => (s.clip c).chain := by
  induction cs generalizing s with
  | nil => exact (List.append_nil _).symm
  | cons c cs ih =>
    obtain ⟨hc, hcs⟩ := List.nodup_cons.mp hcs
    have others : cs.flatMap (fun d => ((s.freeClip c).clip d).chain) = cs.flatMap fun d => (s.clip d).chain := by
      refine List.flatMap_congr fun d hd => ?_
      have hne : d ≠ c := fun heq => hc (heq ▸ hd)
      rw [State.clip_freeClip h, if_neg hne]
    have hsorted : sparseSorted (s.freeClip c).clips = true := State.sorted_setClip h c Clip.freed
    rw [List.foldl_cons, ih hsorted hcs, others, State.freeClip_freeBlocks, List.append_assoc, List.flatMap_cons]

/-- `u` has the Clip Directory of `s` with the uses of `r` given back, and those of `taken` added. -/
def State.UsesMoved (s u : State) (r : Record) (taken : List Voice) : Prop :=
  sparseSorted u.clips = true ∧ ∀ c, u.clip c = { s.clip c with
    uses := (s.clip c).uses - (r.voices.countP fun v => v.clip.val == c) + taken.countP fun v => v.clip.val == c }

/-- A running record's voices are among those its clips count (R76). -/
theorem State.usesSound.le_uses {s : State} (h : s.usesSound) {i : Fin 8} {r : Record} (hr : (s.lane i).copy = some r)
    (c : Nat) : (r.voices.countP fun v => v.clip.val == c) ≤ (s.clip c).uses := by
  rw [h.1 c]
  unfold State.voicesOf
  refine List.le_sum_of_mem (List.mem_map.mpr ⟨i, List.mem_finRange i, ?_⟩)
  simp only [hr]

section returned
variable {s u : State} {i : Fin 8} {r : Record} {taken : List Voice}

/-- No clip that is DOOMED is taken. -/
theorem countP_eq_zero_of_not_doomed (hd : ∀ v ∈ taken, (s.clip v.clip.val).state ≠ .doomed) {c : Nat}
    (hc : (s.clip c).state = .doomed) : (taken.countP fun v => v.clip.val == c) = 0 := by
  refine List.countP_eq_zero.mpr fun v hv heq => hd v hv ?_
  rw [beq_iff_eq.mp heq]
  exact hc

theorem State.UsesMoved.doomedUnused (hm : s.UsesMoved u r taken) (hs : sparseSorted s.clips = true)
    (hu : s.usesSound) (hr : (s.lane i).copy = some r) (hd : ∀ v ∈ taken, (s.clip v.clip.val).state ≠ .doomed) :
    u.doomedUnused = s.clipsFreedBy r := by
  obtain ⟨hsorted, hclip⟩ := hm
  refine (pairwise_lt_filter_fst hsorted _).eq_of_mem_iff (pairwise_lt_filter_fst hs _) fun c => ?_
  refine (State.mem_doomedUnused hsorted c).trans (Iff.trans ?_ (State.mem_clipsFreedBy hs r c).symm)
  rw [hclip c]
  refine and_congr_right fun hc => ?_
  have := hu.le_uses hr c
  have := countP_eq_zero_of_not_doomed hd hc
  dsimp only
  omega

/-- The Clip Directory once the uses are moved and the DOOMED clips without uses freed. -/
theorem State.UsesMoved.clip_freeDoomed (hm : s.UsesMoved u r taken)
    (hd : ∀ v ∈ taken, (s.clip v.clip.val).state ≠ .doomed) (c : Nat) :
    u.freeDoomed.1.clip c = { s.clipGivenBack r c with
      uses := (s.clipGivenBack r c).uses + taken.countP fun v => v.clip.val == c } := by
  obtain ⟨hsorted, hclip⟩ := hm
  rw [(State.freeDoomed_spec hsorted).2.1 c, hclip c]
  unfold State.clipGivenBack
  dsimp only
  by_cases hc : (s.clip c).state = .doomed
  · rw [countP_eq_zero_of_not_doomed hd hc]
    simp only [Nat.add_zero]
  · simp only [hc, false_and, if_false]

theorem State.UsesMoved.freeBlocks_freeDoomed (hm : s.UsesMoved u r taken) (hs : sparseSorted s.clips = true)
    (hu : s.usesSound) (hr : (s.lane i).copy = some r) (hd : ∀ v ∈ taken, (s.clip v.clip.val).state ≠ .doomed) :
    u.freeDoomed.1.freeBlocks = u.freeBlocks ++ (s.clipsFreedBy r).flatMap fun c => (s.clip c).chain := by
  have nodup : u.doomedUnused.Nodup := (pairwise_lt_filter_fst hm.1 _).imp Nat.ne_of_lt
  refine (State.freeBlocks_freeClips hm.1 nodup).trans ?_
  rw [hm.doomedUnused hs hu hr hd]
  refine congrArg (u.freeBlocks ++ ·) (List.flatMap_congr fun c _ => ?_)
  rw [hm.2 c]

end returned

/-! The end cue at the Trigger Unit (R111, R113, R118, R119) -/

/-- A cue passes the admission test just when its number is mapped or an ARMED unit awaits it (R111). -/
theorem passesAdmission_awaited_iff (s : State) (cue : Fin 4096) :
    passesAdmission s s.awaited cue = true
      ↔ cue ∈ s.cueMap.map CueMapEntry.cue ∨ ∃ u, (s.unit u).state = .armed ∧ (s.unit u).cue = some cue := by
  have mapped : (s.mapped cue).isSome = true ↔ cue ∈ s.cueMap.map CueMapEntry.cue := by
    rw [Option.isSome_iff_ne_none, ne_eq, mapped_eq_none_iff, not_not]
  have awaited : ∀ u, (s.unit u).awaits cue = true ↔ (s.unit u).state = .armed ∧ (s.unit u).cue = some cue := by
    simp [CaptureUnit.awaits]
  rw [passesAdmission, Bool.or_eq_true, mapped, State.awaited, Bool.or_eq_true, awaited, awaited, Fin.exists_fin_two]

/-- What the offer of one cue leaves in the Trigger Queue, and what it reports (R111, R113). -/
theorem offerCue_spec {s : State} (hq : s.triggers.length ≤ 16) (awaited : Fin 4096 → Bool) (cue offset : Fin 4096) :
    let o := offerCue s awaited cue offset
    o.1 = { s with triggers := o.1.triggers }
      ∧ (passesAdmission s awaited cue ≠ true → o.1.triggers = s.triggers ∧ o.2 = [])
      ∧ (passesAdmission s awaited cue = true → s.triggers.length = 16 →
          o.1.triggers = s.triggers ∧ o.2 = [.missedCue cue none])
      ∧ (passesAdmission s awaited cue = true → s.triggers.length < 16 → o.2 = [] ∧ o.1.triggers = insertTrigger
          { due := dueFrame s.frameCount offset, admitted := s.frameCount, kind := .cue cue } s.triggers) := by
  intro o
  by_cases hp : passesAdmission s awaited cue = true
  · rcases s.admitCue_cases cue offset with ⟨hfull, ha⟩ | ⟨hroom, ha⟩
    · have ho : o = (s, [.missedCue cue none]) := (if_pos hp).trans ha
      rw [ho]
      exact ⟨rfl, fun h => absurd hp h, fun _ _ => ⟨rfl, rfl⟩, fun _ h => by omega⟩
    · have ho : o = (s.enterTrigger offset (.cue cue), []) := (if_pos hp).trans ha
      rw [ho]
      exact ⟨rfl, fun h => absurd hp h, fun _ h => by omega, fun _ _ => ⟨rfl, rfl⟩⟩
  · have ho : o = (s, []) := if_neg hp
    rw [ho]
    exact ⟨rfl, fun _ => ⟨rfl, rfl⟩, fun h => absurd h hp, fun h => absurd h hp⟩

/-- What the forwarding of one end cue leaves in the Cue Out list, and what it reports (R118, R119). -/
theorem placeCues_singleton_spec {s : State} (hl : s.cueOut.length ≤ 4) (c : EndCue) :
    let p := placeCues [c] s
    p.1 = { s with cueOut := p.1.cueOut }
      ∧ (c.forward = false → p.1.cueOut = s.cueOut ∧ p.2 = [])
      ∧ (c.forward = true → s.cueOut.length = 4 → p.1.cueOut = s.cueOut ∧ p.2 = [.cueOutDropped c.cue])
      ∧ (c.forward = true → s.cueOut.length < 4 → p.2 = [] ∧ p.1.cueOut = s.cueOut
          ++ [{ cue := c.cue, due := dueFrame s.frameCount c.offset }]) := by
  intro p
  refine ⟨placeCues_frame [c] s, fun hf => ?_, fun hf hfull => ?_, fun hf hroom => ?_⟩
  · simp only [p, placeCues, hf, Bool.false_eq_true, if_false, List.append_nil, and_self]
  · rcases s.placeCueOut_cases c with ⟨-, hp⟩ | ⟨hlt, -⟩
    · simp only [p, placeCues, hf, if_true, hp, List.append_nil, and_self]
    · omega
  · rcases s.placeCueOut_cases c with ⟨hge, -⟩ | ⟨-, hp⟩
    · omega
    · simp only [p, placeCues, hf, if_true, hp, List.append_nil, and_self]

/-- The end cue of one record is handled as the statements say, whatever its number, its flag and the room there is. -/
theorem endCueHandled_admitAll {s : State} (h : s.triggersBounded) {cues : List EndCue} (hc : cues.length ≤ 1) :
    ∃ missed dropped, (admitAll (fun _ => s.awaited) cues [] s).2 = missed ++ dropped
      ∧ s.endCueHandled (admitAll (fun _ => s.awaited) cues [] s).1 s.frameCount cues missed dropped := by
  obtain ⟨hq, hl⟩ := h
  match cues, hc with
  | [], _ => exact ⟨[], [], rfl, fun _ => ⟨rfl, rfl, rfl, rfl⟩, nofun⟩
  | [c], _ =>
    obtain ⟨hframe, hnot, hfull, hroom⟩ := offerCue_spec hq s.awaited c.cue c.offset
    have offered : offerCues (fun _ => s.awaited) 0 [(c.cue, c.offset)] s = offerCue s s.awaited c.cue c.offset := by
      simp only [offerCues, List.append_nil]
    have hlist : (offerCue s s.awaited c.cue c.offset).1.cueOut = s.cueOut := by rw [hframe]
    have hcount : (offerCue s s.awaited c.cue c.offset).1.frameCount = s.frameCount := by rw [hframe]
    obtain ⟨hplaced, hstays, hdropped, hsent⟩ := placeCues_singleton_spec (hlist ▸ hl) c
    rw [hlist, hcount] at hsent
    rw [hlist] at hdropped hstays
    have htriggers : (placeCues [c] (offerCue s s.awaited c.cue c.offset).1).1.triggers
        = (offerCue s s.awaited c.cue c.offset).1.triggers := by rw [hplaced]
    refine ⟨(offerCue s s.awaited c.cue c.offset).2, (placeCues [c] (offerCue s s.awaited c.cue c.offset).1).2, ?_, nofun,
      ?_⟩
    · simp only [admitAll, List.map_cons, List.map_nil, List.append_nil, offered]
    · rintro _ ⟨⟩
      simp only [admitAll, List.map_cons, List.map_nil, List.append_nil, offered, htriggers]
      rw [← passesAdmission_awaited_iff]
      exact ⟨hnot, hfull, hroom, hstays, hdropped, hsent⟩

/-! The work that follows the end of a record (R187) -/

/-- How an end cue is handled reads the two lists, the Cue Map and the capture units, nothing else. -/
theorem State.endCueHandled_congr {s s' t t' : State} {now : FrameCount} {cues : List EndCue} {missed dropped : List Event}
    (h : s.endCueHandled t now cues missed dropped) (hq : s'.triggers = s.triggers) (hl : s'.cueOut = s.cueOut)
    (hm : s'.cueMap = s.cueMap) (hu : s'.units = s.units) (hq' : t'.triggers = t.triggers)
    (hl' : t'.cueOut = t.cueOut) : s'.endCueHandled t' now cues missed dropped := by
  unfold State.endCueHandled State.unit at *
  rw [hq, hl, hm, hu, hq', hl']
  exact h

/-- The lanes' work of an end with nothing but lanes, slots and uses changed, and then the returns, the end cue and the
reports: what the station holds in the end. -/
theorem finishLanes_after_end {s : State} (hs : s.Sound) {i : Fin 8} {r : Record} (hr : (s.lane i).copy = some r)
    {now : FrameCount} {w : LaneWork} {taken : List Voice}
    (hw : w.st = { s with frameCount := now, lanes := w.st.lanes, slots := w.st.slots, clips := w.st.clips })
    (hm : s.UsesMoved w.st r taken) (hd : ∀ v ∈ taken, (s.clip v.clip.val).state ≠ .doomed)
    (hc : w.endCues.length ≤ 1) :
    let t : State := { finishLanes [] w with frameCount := s.frameCount }
    ∃ missed dropped, s.endCueHandled t now w.endCues missed dropped
      ∧ t.lanes = w.st.lanes ∧ t.slots = w.st.slots
      ∧ (∀ c, t.clip c = { s.clipGivenBack r c with
          uses := (s.clipGivenBack r c).uses + taken.countP fun v => v.clip.val == c })
      ∧ t.freeBlocks = s.freeBlocks ++ (s.clipsFreedBy r).flatMap (fun c => (s.clip c).chain)
      ∧ t.reportsAfter s (w.reports ++ (s.clipsFreedBy r).map Event.clipFreed ++ (missed ++ dropped))
      ∧ t = { s with
          lanes := t.lanes, slots := t.slots, clips := t.clips, freeBlocks := t.freeBlocks, reports := t.reports
          lost := t.lost, eventSeq := t.eventSeq, triggers := t.triggers, cueOut := t.cueOut } := by
  have sorted := hs.canonical.2.2.1
  have freed : w.st.freeDoomed.1 = { s with
      frameCount := now, lanes := w.st.lanes, slots := w.st.slots, clips := w.st.freeDoomed.1.clips
      freeBlocks := w.st.freeDoomed.1.freeBlocks } := by
    rw [State.freeDoomed_frame, hw]
  have clips := hm.clip_freeDoomed hd
  have blocks := hm.freeBlocks_freeDoomed sorted hs.uses hr hd
  have events : w.st.freeDoomed.2 = (s.clipsFreedBy r).map Event.clipFreed :=
    congrArg (List.map Event.clipFreed) (hm.doomedUnused sorted hs.uses hr hd)
  have bounded : w.st.freeDoomed.1.triggersBounded := by rw [freed]; exact hs.triggers
  have finished : finishLanes [] w = (admitAll (fun _ => w.st.freeDoomed.1.awaited) w.endCues [] w.st.freeDoomed.1).1.offerEvents
      (w.reports ++ w.st.freeDoomed.2 ++ []
        ++ (admitAll (fun _ => w.st.freeDoomed.1.awaited) w.endCues [] w.st.freeDoomed.1).2) := rfl
  have admitted := admitAll_frame (fun _ => w.st.freeDoomed.1.awaited) w.endCues [] w.st.freeDoomed.1
  obtain ⟨missed, dropped, raised, handled⟩ := endCueHandled_admitAll bounded hc
  rw [raised, events, List.append_nil] at finished
  rw [show w.st.freeBlocks = s.freeBlocks by rw [hw]] at blocks
  generalize (admitAll (fun _ => w.st.freeDoomed.1.awaited) w.endCues [] w.st.freeDoomed.1).1 = a at *
  generalize w.st.freeDoomed.1 = f at *
  have queue : s.SameReports a := by rw [admitted, freed]; exact ⟨rfl, rfl, rfl⟩
  have offered := queue.offerEvents (w.reports ++ (s.clipsFreedBy r).map Event.clipFreed ++ (missed ++ dropped))
  have count : f.frameCount = now := by rw [freed]
  have lanes : a.lanes = w.st.lanes := by rw [admitted, freed]
  have slots : a.slots = w.st.slots := by rw [admitted, freed]
  have directory : a.clips = f.clips := by rw [admitted]
  have list : a.freeBlocks = f.freeBlocks := by rw [admitted]
  rw [finished, State.offerEvents_frame]
  refine ⟨missed, dropped, ?_, lanes, slots, fun c => (State.clip_congr directory c).trans (clips c), list.trans blocks,
    offered, ?_⟩
  · rw [count] at handled
    refine State.endCueHandled_congr handled ?_ ?_ ?_ ?_ rfl rfl <;> rw [freed]
  · rw [admitted, freed]

/-- The load's tests find the same where only lanes and uses differ and a lane's own slots have become free (R30). -/
theorem loadTest_congr {s u : State} {i : Fin 8} (ht : u.table = s.table)
    (hc : ∀ c, (u.clip c).state = (s.clip c).state ∧ (u.clip c).length = (s.clip c).length)
    (hs : ∀ j : Fin 16, u.slots[j] = if s.slots[j] = some i then none else s.slots[j]) (index : Fin 256) :
    loadTest u i index = loadTest s i index := by
  have record : u.record index.val = s.record index.val := by rw [State.record, ht]; rfl
  cases hr : s.record index.val with
  | none => unfold loadTest; rw [record, hr]
  | some r =>
    have length : effectiveLength u r = effectiveLength s r := by simp only [effectiveLength, hc]
    have conflict : (r.voices.any fun v => u.slots[v.slot] != none && u.slots[v.slot] != some i)
        = r.voices.any fun v => s.slots[v.slot] != none && s.slots[v.slot] != some i := by
      rw [Bool.eq_iff_iff, any_conflict_iff, any_conflict_iff]
      refine exists_congr fun v => and_congr_right fun _ => exists_congr fun owner => and_congr_left fun hne => ?_
      rw [hs]
      split
      · rename_i hi
        rw [hi]
        exact ⟨nofun, fun h => absurd (Option.some.inj h).symm hne⟩
      · exact Iff.rfl
    rw [loadTest_of_record hr, loadTest_of_record (record.trans hr), length, conflict]
    simp only [hc]

/-! The claims given back (R29) -/

/-- `u` is `s` at the count `now`, the context of lane `i` changed but for its owned slots. -/
def State.LaneAdvanced (s u : State) (i : Fin 8) (now : FrameCount) : Prop :=
  u = { s with frameCount := now, lanes := u.lanes } ∧ (∀ j, j ≠ i → u.lane j = s.lane j)
    ∧ (u.lane i).slots = (s.lane i).slots

/-- `u` is `s` at the count `now` with the claims of lane `i` given back: its slots unowned, the uses of its record
released, and every other lane as it was. -/
def State.ClaimsReturned (s u : State) (i : Fin 8) (r : Record) (now : FrameCount) : Prop :=
  u = { s with frameCount := now, lanes := u.lanes, slots := u.slots, clips := u.clips } ∧ s.UsesMoved u r []
    ∧ (∀ j, j ≠ i → u.lane j = s.lane j)
    ∧ ∀ j : Fin 16, u.slots[j] = if s.slots[j] = some i then none else s.slots[j]

theorem State.LaneAdvanced.releaseClaims {s u : State} {i : Fin 8} {now : FrameCount} (h : s.LaneAdvanced u i now)
    (hc : s.canonical) (hl : s.lanesSound) (r : Record) : s.ClaimsReturned (releaseClaims i r u) i r now := by
  obtain ⟨hframe, hlanes, howned⟩ := h
  have directory : u.clips = s.clips := by rw [hframe]
  have table : u.slots = s.slots := by rw [hframe]
  obtain ⟨hsorted, hlane, hslots, hclip⟩ := releaseClaims_spec (directory ▸ hc.2.2.1 : sparseSorted u.clips = true) i r
  refine ⟨?_, ⟨hsorted, fun c => ?_⟩, fun j hj => ?_, fun j => ?_⟩
  · rw [releaseClaims_frame, hframe]
  · rw [hclip c, State.clip_congr directory c]
    rfl
  · rw [hlane j, if_neg hj, hlanes j hj]
  · rw [hslots j, howned, table]
    simp only [hl.2 j i]

/-- Once the claims are given back, a load of the same lane finds what it would have found before the end (R30). -/
theorem State.ClaimsReturned.loadTest_eq {s u : State} {i : Fin 8} {r : Record} {now : FrameCount}
    (h : s.ClaimsReturned u i r now) (index : Fin 256) : loadTest u i index = loadTest s i index := by
  obtain ⟨hframe, ⟨-, hclip⟩, -, hslots⟩ := h
  refine loadTest_congr ?_ (fun c => ?_) hslots index
  · rw [hframe]
  · rw [hclip c]
    exact ⟨rfl, rfl⟩

theorem State.ClaimsReturned.effectiveLength_eq {s u : State} {i : Fin 8} {r : Record} {now : FrameCount}
    (h : s.ClaimsReturned u i r now) (next : Record) : effectiveLength u next = effectiveLength s next := by
  obtain ⟨-, ⟨-, hclip⟩, -, -⟩ := h
  simp only [effectiveLength, hclip]

section ending
variable {s : State} {i : Fin 8} {r : Record} {now : FrameCount} {w : LaneWork}

/-- Claims given back and the lane left IDLE: the splice is over. -/
theorem State.ClaimsReturned.spliceOver (h : s.ClaimsReturned w.st i r now) (hs : s.Sound)
    (hr : (s.lane i).copy = some r) (hc : w.endCues.length ≤ 1) :
    let t : State := { finishLanes [] (w.setLane i Lane.idle) with frameCount := s.frameCount }
    ∃ missed dropped, s.endCueHandled t now w.endCues missed dropped
      ∧ s.spliceOver t i r w.reports (missed ++ dropped) := by
  obtain ⟨hframe, hmoved, hlanes, hslots⟩ := h
  have frame : (w.setLane i Lane.idle).st = { s with
      frameCount := now, lanes := (w.setLane i Lane.idle).st.lanes, slots := (w.setLane i Lane.idle).st.slots
      clips := (w.setLane i Lane.idle).st.clips } := by
    simp only [LaneWork.setLane, State.setLane]
    rw [hframe]
  obtain ⟨missed, dropped, handled, lanes, slots, clips, blocks, reports, rest⟩ :=
    finishLanes_after_end hs hr (w := w.setLane i Lane.idle) frame hmoved nofun hc
  refine ⟨missed, dropped, handled, fun j => ?_, fun j => ?_, clips, blocks, reports, rest⟩
  · rw [State.lane_congr lanes j]
    refine (State.lane_setLane w.st i j Lane.idle).trans ?_
    split
    · rfl
    · rename_i hj; exact hlanes j hj
  · rw [show _ = w.st.slots from slots]
    exact hslots j

/-- Claims given back and another record loaded at once: the splice is followed. -/
theorem State.ClaimsReturned.spliceFollowed (h : s.ClaimsReturned w.st i r now) (hs : s.Sound)
    (hr : (s.lane i).copy = some r) (hc : w.endCues.length ≤ 1) {index : Fin 256} {next : Record}
    (hl : loadTest s i index = .ok next) :
    let t : State := { finishLanes [] (commitLoad i index next w) with frameCount := s.frameCount }
    ∃ missed dropped, s.endCueHandled t now w.endCues missed dropped
      ∧ s.spliceFollowed t i r index next
          (w.reports ++ if next.reportStart then [.spliceStarted i index next.tag] else []) (missed ++ dropped) := by
  have length := h.effectiveLength_eq next
  obtain ⟨hframe, ⟨hsorted, hclip⟩, hlanes, hslots⟩ := h
  obtain ⟨hsorted', hlane', hslots', hclip', hreports, hcues⟩ := commitLoad_spec hsorted i index next
  have frame : (commitLoad i index next w).st = { s with
      frameCount := now, lanes := (commitLoad i index next w).st.lanes, slots := (commitLoad i index next w).st.slots
      clips := (commitLoad i index next w).st.clips } := by
    rw [(LaneWork.follows_commitLoad i index next w).1, hframe]
  have moved : s.UsesMoved (commitLoad i index next w).st r next.voices := by
    refine ⟨hsorted', fun c => ?_⟩
    rw [hclip' c, hclip c]
    rfl
  obtain ⟨-, hready, -, -⟩ := loadTest_ok hl
  have playable : ∀ v ∈ next.voices, (s.clip v.clip.val).state ≠ .doomed := by
    intro v hv
    rw [hready v hv]
    nofun
  obtain ⟨missed, dropped, handled, lanes, slots, clips, blocks, reports, rest⟩ :=
    finishLanes_after_end hs hr frame moved playable (hcues ▸ hc)
  refine ⟨missed, dropped, hcues ▸ handled, fun j => ?_, fun j => ?_, clips, blocks, hreports ▸ reports, rest⟩
  · rw [State.lane_congr lanes j, hlane' j, length]
    split
    · rfl
    · rename_i hj; exact hlanes j hj
  · rw [show _ = (commitLoad i index next w).st.slots from slots, hslots' j]
    simp only [Record.mem_slotSet]
    rw [hslots j]

end ending

/-! RECORD_END (R29) -/

/-- The work of an end up to the load of what follows: claims given back, SPLICE ENDED and the end cue handed on (R29). -/
def LaneWork.ended (i : Fin 8) (r : Record) (w : LaneWork) : LaneWork where
  st := releaseClaims i r w.st
  reports := w.reports ++ endReport i (w.st.lane i) r (w.st.lane i).mark.reason
  endCues := w.endCues ++ handedEndCue (w.st.lane i) r

/-- With nothing to follow the lane goes IDLE. -/
theorem endRecord_of_nothing_follows {i : Fin 8} {r : Record} {w : LaneWork} (hr : (w.st.lane i).copy = some r)
    (hp : (w.st.lane i).pending = none) (hn : (w.st.lane i).mark ≠ .unmarked ∨ r.next = none) :
    endRecord i w = (w.ended i r).setLane i Lane.idle := by
  rcases endRecord_cases i w with ⟨hnone, -⟩ | ⟨r', hr', ⟨index, hf, -⟩ | ⟨-, -, he⟩⟩
  · rw [hr] at hnone; cases hnone
  · obtain rfl := Option.some.inj (hr.symm.trans hr')
    rcases hf with hf | ⟨-, hm, hnext⟩
    · rw [hp] at hf; cases hf
    · rcases hn with hn | hn
      · exact absurd hm hn
      · rw [hn] at hnext; cases hnext
  · obtain rfl := Option.some.inj (hr.symm.trans hr')
    exact he

/-- What follows is the pending record or, under no end mark, the linked one. -/
theorem endRecord_of_follows {i : Fin 8} {r : Record} {w : LaneWork} {index : Fin 256}
    (hr : (w.st.lane i).copy = some r)
    (hf : (w.st.lane i).pending.map PendingTrigger.record = some index
      ∨ (w.st.lane i).pending = none ∧ (w.st.lane i).mark = .unmarked ∧ r.next = some index) :
    endRecord i w = loadRecord i index (w.ended i r) := by
  rcases endRecord_cases i w with ⟨hnone, -⟩ | ⟨r', hr', ⟨index', hf', he⟩ | ⟨hp, hn, -⟩⟩
  · rw [hr] at hnone; cases hnone
  · obtain rfl := Option.some.inj (hr.symm.trans hr')
    have same : index' = index := by
      rcases hf with hf | ⟨hp, -, hf⟩ <;> rcases hf' with hf' | ⟨hp', -, hf'⟩
      · exact Option.some.inj (hf'.symm.trans hf)
      · rw [hp'] at hf; cases hf
      · rw [hp] at hf'; cases hf'
      · exact Option.some.inj (hf'.symm.trans hf)
    rw [he, same]
    rfl
  · obtain rfl := Option.some.inj (hr.symm.trans hr')
    rcases hf with hf | ⟨-, hm, hf⟩
    · rw [hp] at hf; cases hf
    · rcases hn with hn | hn
      · exact absurd hm hn
      · rw [hf] at hn; cases hn

/-- A lane with a copy is busy (R18). -/
theorem Lane.sound.busy {l : Lane} (h : l.sound) {r : Record} (hr : l.copy = some r) : l.busy = true := by
  rcases h with rfl | ⟨r', -, hphase, -⟩
  · cases hr
  · simpa [Lane.busy] using hphase

/-- The counter of a sound busy lane has not reached its total. -/
theorem Lane.sound.k_ne_total {l : Lane} (h : l.sound) (hb : l.busy = true) : l.k ≠ l.total := by
  rcases h with rfl | ⟨r', -, -, -, -, hk, -⟩
  · cases hb
  · exact Nat.ne_of_lt hk

/-- The state in which a record ends at the next arrival: the count and the lane's counter advanced (R24, log entry 5). -/
def State.advancedTo (s : State) (i : Fin 8) : State :=
  ({ s with frameCount := s.frameCount + 1 } : State).setLane i { s.lane i with k := (s.lane i).k + 1 }

@[simp] theorem State.advancedTo_lane (s : State) (i : Fin 8) :
    (s.advancedTo i).lane i = { s.lane i with k := (s.lane i).k + 1 } :=
  (State.lane_setLane ..).trans (if_pos rfl)

theorem State.laneAdvanced_advancedTo (s : State) (i : Fin 8) : s.LaneAdvanced (s.advancedTo i) i (s.frameCount + 1) :=
  ⟨rfl, fun _ hj => (State.lane_setLane ..).trans (if_neg hj), by rw [State.advancedTo_lane]⟩

theorem exec_recordEnd_of_not_due {s : State} {i : Fin 8} (hs : (s.lane i).sound)
    (hk : (s.lane i).k + 1 ≠ (s.lane i).total) : exec (.recordEnd i) s = .next s := by
  have unmoved : reachEnd i s = s := by
    have busy : (s.lane i).busy = true → (s.lane i).k ≠ (s.lane i).total := hs.k_ne_total
    unfold reachEnd
    dsimp only
    rw [if_neg, if_neg]
    · simp [hk]
    · simpa using busy
  show Host.Outcome.next (whenLocked (reachEnd i) s) = _
  unfold whenLocked
  rw [unmoved, ite_self]

theorem exec_recordEnd_of_due {s : State} {i : Fin 8} {r : Record} (hs : (s.lane i).sound) (hl : s.lock = .locked)
    (hr : (s.lane i).copy = some r) (hk : (s.lane i).k + 1 = (s.lane i).total) :
    exec (.recordEnd i) s = .next { finishLanes [] (endRecord i (LaneWork.start (s.advancedTo i))) with
      frameCount := s.frameCount } := by
  have busy := hs.busy hr
  have advanced : advanceLane i (LaneWork.start { s with frameCount := s.frameCount + 1 })
      = LaneWork.start (s.advancedTo i) := if_pos busy
  have reached : reachEnd i s = s.atNextCount fun arrived =>
      finishLanes [] (endRecord i (advanceLane i (LaneWork.start arrived))) := by
    unfold reachEnd
    dsimp only
    rw [if_neg, if_pos]
    · simp [busy, hk]
    · simpa [busy] using hs.k_ne_total busy
  show Host.Outcome.next (whenLocked (reachEnd i) s) = _
  rw [whenLocked_of_locked _ hl, reached, State.atNextCount, advanced]

theorem length_handedEndCue_le (l : Lane) (r : Record) : (handedEndCue l r).length ≤ 1 := by
  unfold handedEndCue
  split
  · exact Nat.zero_le 1
  · cases r.endCue <;> simp

section advanced
variable (s : State) (i : Fin 8) (r : Record)

/-- The end that the next arrival brings, as far as the claims, the report and the end cue go. -/
def State.endedWork : LaneWork := (LaneWork.start (s.advancedTo i)).ended i r

theorem State.endedWork_reports :
    (s.endedWork i r).reports = endReport i (s.lane i) r (s.lane i).mark.reason := by
  simp [State.endedWork, LaneWork.ended, LaneWork.start, endReport]

theorem State.endedWork_endCues : (s.endedWork i r).endCues = handedEndCue (s.lane i) r := by
  simp [State.endedWork, LaneWork.ended, LaneWork.start, handedEndCue]

theorem State.length_endedWork_endCues_le : (s.endedWork i r).endCues.length ≤ 1 :=
  (s.endedWork_endCues i r).symm ▸ length_handedEndCue_le (s.lane i) r

/-- The claims given back at the end that the next arrival brings. -/
theorem State.Sound.claimsReturned {s : State} (hs : s.Sound) :
    s.ClaimsReturned (s.endedWork i r).st i r (s.frameCount + 1) :=
  (s.laneAdvanced_advancedTo i).releaseClaims hs.canonical hs.lanes r

theorem endRecord_advanced_of_nothing_follows {s : State} {i : Fin 8} {r : Record} (hr : (s.lane i).copy = some r)
    (hp : (s.lane i).pending = none) (hn : (s.lane i).mark ≠ .unmarked ∨ r.next = none) :
    endRecord i (LaneWork.start (s.advancedTo i)) = (s.endedWork i r).setLane i Lane.idle := by
  apply endRecord_of_nothing_follows <;> simpa only [LaneWork.start, State.advancedTo_lane]

theorem endRecord_advanced_of_follows {s : State} {i : Fin 8} {r : Record} {index : Fin 256}
    (hr : (s.lane i).copy = some r) (hf : (s.lane i).pending.map PendingTrigger.record = some index
      ∨ (s.lane i).pending = none ∧ (s.lane i).mark = .unmarked ∧ r.next = some index) :
    endRecord i (LaneWork.start (s.advancedTo i)) = loadRecord i index (s.endedWork i r) := by
  apply endRecord_of_follows <;> simpa only [LaneWork.start, State.advancedTo_lane]

end advanced

/-- Settles O52: the end of `State.endedWork` with the lane left IDLE. -/
theorem recordEndReleasesAndRaises : Obligations.RecordEndReleasesAndRaises := by
  intro s i hs locked l
  refine ⟨exec_recordEnd_of_not_due (hs.lanes.1 i), fun r hr hk hp hn => ?_⟩
  intro cues reason
  have ran := exec_recordEnd_of_due (hs.lanes.1 i) locked hr hk
  rw [endRecord_advanced_of_nothing_follows hr hp hn] at ran
  obtain ⟨missed, dropped, handled, ended⟩ :=
    (hs.claimsReturned i r).spliceOver hs hr (s.length_endedWork_endCues_le i r)
  have same : l.mark.reason = reason := by
    simp only [reason]
    cases l.mark <;> rfl
  rw [State.endedWork_endCues] at handled
  rw [State.endedWork_reports, same] at ended
  exact ⟨_, missed, dropped, ran, ended, handled⟩

/-- A load whose voices are READY, have a clip sample at their first frame and meet no slot of another lane passes its
tests. -/
theorem loadTest_eq_ok {s : State} {i : Fin 8} {index : Fin 256} {r : Record} (ht : s.tableSound)
    (hr : s.record index.val = some r)
    (h : ∀ v ∈ r.voices, (s.clip v.clip.val).state = .ready ∧ r.start < (s.clip v.clip.val).length
      ∧ (s.slots[v.slot] = none ∨ s.slots[v.slot] = some i)) : loadTest s i index = .ok r := by
  have unready : ¬∃ v ∈ r.voices, (s.clip v.clip.val).state ≠ .ready := fun ⟨v, hv, hne⟩ => hne (h v hv).1
  have void : ¬∃ v ∈ r.voices, (s.clip v.clip.val).length ≤ r.start := fun ⟨v, hv, hle⟩ =>
    Nat.not_lt.mpr hle (h v hv).2.1
  have conflict : ¬∃ v ∈ r.voices, ∃ owner, s.slots[v.slot] = some owner ∧ owner ≠ i := by
    rintro ⟨v, hv, owner, howner, hne⟩
    rcases (h v hv).2.2 with hfree | hown
    · rw [howner] at hfree; cases hfree
    · exact hne (Option.some.inj (howner.symm.trans hown))
  rw [loadTest_of_record hr, if_neg (mt (any_not_ready_iff s r.voices).mp unready),
    if_neg (mt (effectiveLength_eq_zero_iff s (ht.record hr).1).mp void),
    if_neg (mt (any_conflict_iff s i r.voices).mp conflict)]

theorem loadTest_of_not_ready {s : State} {index : Fin 256} {r : Record} (hr : s.record index.val = some r)
    (h : ∃ v ∈ r.voices, (s.clip v.clip.val).state ≠ .ready) (i : Fin 8) :
    loadTest s i index = .error .clipNotReady := by
  rw [loadTest_of_record hr, if_pos ((any_not_ready_iff s r.voices).mpr h)]

/-- A running record's lane owns the slots of its voices (R21). -/
theorem State.lanesSound.slot_owned {s : State} (h : s.lanesSound) {i : Fin 8} {r : Record}
    (hr : (s.lane i).copy = some r) {j : Fin 16} (hj : j ∈ r.voices.map Voice.slot) : s.slots[j] = some i := by
  obtain ⟨lanes, owners⟩ := h
  rw [owners j i]
  rcases lanes i with hidle | ⟨r', hr', -, -, -, -, hslots⟩
  · rw [hidle] at hr; cases hr
  · obtain rfl := Option.some.inj (hr.symm.trans hr')
    rw [hslots, Record.mem_slotSet]
    exact List.mem_map.mp hj

theorem loadRecord_of_error {w : LaneWork} {i : Fin 8} {index : Fin 256} {reason : ChainReason}
    (h : loadTest w.st i index = .error reason) :
    loadRecord i index w = (w.report [.chainEnded i index reason]).setLane i Lane.idle := by
  unfold loadRecord
  rw [h]
  rfl

theorem loadRecord_of_ok {w : LaneWork} {i : Fin 8} {index : Fin 256} {r : Record}
    (h : loadTest w.st i index = .ok r) : loadRecord i index w = commitLoad i index r w := by
  unfold loadRecord
  rw [h]

/-- Settles O53: the two outcomes of the load, and the tests it meets on the claims of the ended record. -/
theorem recordEndFollowsTheLink : Obligations.RecordEndFollowsTheLink := by
  intro s i r index hs locked l hr hk hf cues reason ended
  have ran := exec_recordEnd_of_due (hs.lanes.1 i) locked hr hk
  have returned := hs.claimsReturned i r
  have found := returned.loadTest_eq index
  have one := s.length_endedWork_endCues_le i r
  have same : l.mark.reason = reason := by
    simp only [reason]
    cases l.mark <;> rfl
  have reports : (s.endedWork i r).reports = ended := by rw [State.endedWork_reports, same]; rfl
  have handed : (s.endedWork i r).endCues = cues := s.endedWork_endCues i r
  rw [endRecord_advanced_of_follows hr hf] at ran
  refine ⟨fun why hl => ?_, fun next hl => ?_, fun next hnext => ⟨fun playable => ?_, fun ⟨v, hv, hd⟩ => ?_⟩⟩
  · rw [loadRecord_of_error (found.trans hl)] at ran
    obtain ⟨missed, dropped, handled, splice⟩ := State.ClaimsReturned.spliceOver
      (w := (s.endedWork i r).report [.chainEnded i index why]) returned hs hr one
    exact ⟨_, missed, dropped, ran, handed ▸ handled, reports ▸ splice⟩
  · rw [loadRecord_of_ok (found.trans hl)] at ran
    obtain ⟨missed, dropped, handled, splice⟩ := returned.spliceFollowed hs hr one hl
    exact ⟨_, missed, dropped, ran, handed ▸ handled, reports ▸ splice⟩
  · refine loadTest_eq_ok hs.table hnext fun v hv => ?_
    obtain ⟨ready, long, slot⟩ := playable v hv
    exact ⟨ready, long, slot.imp_right (hs.lanes.slot_owned hr)⟩
  · exact loadTest_of_not_ready hnext ⟨v, hv, by rw [hd]; nofun⟩ i

end Sys2Proof.Machine
end

section
/-! Every step keeps each lane IDLE or busy with k below T, and the Slot Table in agreement with the lanes (R18, R21, R24). -/

namespace Sys2Proof.Machine

/-! One lane at work while the others are sound -/

/-- A Slot Table entry names a lane exactly when that lane owns the slot (R21). -/
def State.slotsAgree (s : State) : Prop := ∀ (j : Fin 16) (i : Fin 8), s.slots[j] = some i ↔ j ∈ (s.lane i).slots

/-- Every lane but `i` is sound, lane `i` satisfies `P`, and the Slot Table agrees with the lanes. -/
def State.LaneAtWork (s : State) (i : Fin 8) (P : Lane → Prop) : Prop :=
  (∀ j, j ≠ i → (s.lane j).sound) ∧ P (s.lane i) ∧ s.slotsAgree

/-- A lane between its advance and its end: sound, but that k may have reached T (R23, R24). -/
def Lane.reached (l : Lane) : Prop :=
  l = Lane.idle
    ∨ ∃ r, l.copy = some r ∧ l.phase ≠ .idle ∧ l.source.isSome = true ∧ 1 ≤ l.effLen ∧ l.k ≤ l.total ∧ l.slots = r.slotSet

/-- A lane that has given its slots back (R29). -/
def Lane.claimless (l : Lane) : Prop := l.slots = []

/-- No two lanes own one slot. -/
theorem State.slotsAgree.owner_unique {s : State} (h : s.slotsAgree) {j : Fin 16} {x i : Fin 8} (hx : j ∈ (s.lane x).slots)
    (hi : j ∈ (s.lane i).slots) : x = i :=
  Option.some.inj (((h j x).mpr hx).symm.trans ((h j i).mpr hi))

theorem State.lanesSound_iff_laneAtWork (s : State) (i : Fin 8) : s.lanesSound ↔ s.LaneAtWork i Lane.sound := by
  constructor
  · exact fun ⟨sound, agree⟩ => ⟨fun j _ => sound j, sound i, agree⟩
  · rintro ⟨others, own, agree⟩
    refine ⟨fun j => ?_, agree⟩
    by_cases hj : j = i
    · exact hj ▸ own
    · exact others j hj

theorem State.LaneAtWork.imp {s : State} {i : Fin 8} {P Q : Lane → Prop} (h : s.LaneAtWork i P) (hPQ : ∀ l, P l → Q l) :
    s.LaneAtWork i Q :=
  ⟨h.1, hPQ _ h.2.1, h.2.2⟩

theorem Lane.sound.reached {l : Lane} (h : l.sound) : l.reached :=
  h.imp_right fun ⟨r, hr, hp, hs, he, hk, ho⟩ => ⟨r, hr, hp, hs, he, hk.le, ho⟩

theorem Lane.idle_sound : Lane.idle.sound := .inl rfl
theorem Lane.idle_claimless : Lane.idle.claimless := rfl

/-- A lane that runs a record has frames of it left (R24). -/
theorem Lane.sound.k_lt_total {l : Lane} (h : l.sound) {r : Record} (hr : l.copy = some r) : l.k < l.total := by
  rcases h with rfl | ⟨r', -, -, -, -, hk, -⟩
  · cases hr
  · exact hk

theorem Lane.sound.eq_idle {l : Lane} (h : l.sound) (hb : l.busy = false) : l = Lane.idle := by
  rcases h with hidle | ⟨r, -, hphase, -⟩
  · exact hidle
  · simp [Lane.busy, hphase] at hb

/-- A change of lane `i`'s context that leaves its owned slots keeps the agreement. -/
theorem State.LaneAtWork.setLane {s : State} {i : Fin 8} {P Q : Lane → Prop} (h : s.LaneAtWork i P) {l : Lane} (hl : Q l)
    (hs : l.slots = (s.lane i).slots) : (s.setLane i l).LaneAtWork i Q := by
  obtain ⟨others, -, agree⟩ := h
  refine ⟨fun j hj => ?_, ?_, fun j x => ?_⟩
  · rw [State.lane_setLane, if_neg hj]; exact others j hj
  · rw [State.lane_setLane, if_pos rfl]; exact hl
  · rw [State.setLane_slots, State.lane_setLane, agree j x]
    split
    · rename_i hx; rw [hx, hs]
    · exact Iff.rfl

theorem State.LaneAtWork.congr {s t : State} {i : Fin 8} {P : Lane → Prop} (h : s.LaneAtWork i P) (hl : t.lanes = s.lanes)
    (hs : t.slots = s.slots) : t.LaneAtWork i P := by
  unfold State.LaneAtWork State.slotsAgree State.lane at *
  rwa [hl, hs]

/-! What a claim and its return do to lanes and slots -/

theorem releaseClaims_lane (i : Fin 8) (r : Record) (s : State) (j : Fin 8) :
    (releaseClaims i r s).lane j = if j = i then { s.lane i with slots := [] } else s.lane j := by
  simp only [releaseClaims, State.lane_setLane, releaseUses_lane, State.setSlots_lane]

theorem releaseClaims_slots (i : Fin 8) (r : Record) (s : State) (j : Fin 16) :
    (releaseClaims i r s).slots[j] = if j ∈ (s.lane i).slots then none else s.slots[j] := by
  simp only [releaseClaims, State.setLane_slots, releaseUses_slots, State.slots_setSlots]

theorem commitLoad_lane (i : Fin 8) (index : Fin 256) (r : Record) (w : LaneWork) (j : Fin 8) :
    (commitLoad i index r w).st.lane j
      = if j = i then Lane.loaded index r (effectiveLength w.st r) else w.st.lane j := by
  simp only [commitLoad, LaneWork.report, State.lane_setLane, addUses_lane, State.setSlots_lane]

theorem commitLoad_slots (i : Fin 8) (index : Fin 256) (r : Record) (w : LaneWork) (j : Fin 16) :
    (commitLoad i index r w).st.slots[j] = if j ∈ r.slotSet then some i else w.st.slots[j] := by
  simp only [commitLoad, LaneWork.report, State.setLane_slots, addUses_slots, State.slots_setSlots]

theorem Lane.loaded_sound (index : Fin 256) (r : Record) {e : Nat} (he : 1 ≤ e) : (Lane.loaded index r e).sound := by
  refine .inr ⟨r, rfl, phaseAt_ne_idle r _ 0, rfl, he, ?_, rfl⟩
  exact Nat.mul_pos he (Nat.succ_pos _)

theorem State.LaneAtWork.releaseClaims {s : State} {i : Fin 8} {P : Lane → Prop} (h : s.LaneAtWork i P) (r : Record) :
    (releaseClaims i r s).LaneAtWork i Lane.claimless := by
  obtain ⟨others, -, agree⟩ := h
  refine ⟨fun j hj => ?_, ?_, fun j x => ?_⟩
  · rw [releaseClaims_lane, if_neg hj]; exact others j hj
  · rw [releaseClaims_lane, if_pos rfl]; rfl
  · rw [releaseClaims_slots, releaseClaims_lane]
    by_cases hj : j ∈ (s.lane i).slots
    · rw [if_pos hj]
      by_cases hx : x = i
      · simp [hx]
      · rw [if_neg hx]
        exact iff_of_false nofun fun h => hx (agree.owner_unique h hj)
    · rw [if_neg hj, agree j x]
      by_cases hx : x = i
      · simp [hx, hj]
      · rw [if_neg hx]

theorem State.LaneAtWork.idle {s : State} {i : Fin 8} (h : s.LaneAtWork i Lane.claimless) :
    (s.setLane i Lane.idle).lanesSound :=
  (State.lanesSound_iff_laneAtWork _ i).mpr (h.setLane Lane.idle_sound h.2.1.symm)

/-- A load whose tests pass claims only slots that no lane owns, once the lane itself owns none (R21, R25, R26). -/
theorem State.LaneAtWork.commitLoad {w : LaneWork} {i : Fin 8} (h : w.st.LaneAtWork i Lane.claimless) {index : Fin 256}
    {r : Record} (hr : loadTest w.st i index = .ok r) : (commitLoad i index r w).st.lanesSound := by
  obtain ⟨others, own, agree⟩ := h
  obtain ⟨-, -, length, allowed⟩ := loadTest_ok hr
  have unowned : ∀ j ∈ r.slotSet, w.st.slots[j] = none := by
    intro j hj
    obtain ⟨v, hv, rfl⟩ := (Record.mem_slotSet r j).mp hj
    refine (allowed v hv).resolve_right fun hi => ?_
    rw [agree, own] at hi
    cases hi
  refine ⟨fun j => ?_, fun j x => ?_⟩
  · rw [commitLoad_lane]
    split
    · exact Lane.loaded_sound index r length
    · rename_i hj; exact others j hj
  · rw [commitLoad_slots, commitLoad_lane]
    by_cases hj : j ∈ r.slotSet
    · rw [if_pos hj]
      by_cases hx : x = i
      · rw [if_pos hx, hx]
        exact iff_of_true rfl hj
      · rw [if_neg hx, ← agree j x, unowned j hj]
        exact iff_of_false (fun h => hx (Option.some.inj h).symm) nofun
    · rw [if_neg hj, agree j x]
      by_cases hx : x = i
      · rw [if_pos hx, hx, own]
        exact iff_of_false List.not_mem_nil hj
      · rw [if_neg hx]

theorem State.LaneAtWork.loadRecord {w : LaneWork} {i : Fin 8} (h : w.st.LaneAtWork i Lane.claimless) (index : Fin 256) :
    (loadRecord i index w).st.lanesSound := by
  rcases loadRecord_cases i index w with ⟨r, hr, he⟩ | ⟨reason, -, he⟩ <;> rw [he]
  · exact h.commitLoad hr
  · exact h.idle

/-! The steps of a lane's frame work (R23) -/

theorem State.LaneAtWork.endRecord {w : LaneWork} {i : Fin 8} (h : w.st.LaneAtWork i Lane.reached) :
    (endRecord i w).st.lanesSound := by
  rcases endRecord_cases i w with ⟨hnone, he⟩ | ⟨r, -, ⟨index, -, he⟩ | ⟨-, -, he⟩⟩ <;> rw [he]
  · refine (State.lanesSound_iff_laneAtWork _ i).mpr ⟨h.1, ?_, h.2.2⟩
    rcases h.2.1 with hidle | ⟨r, hr, -⟩
    · exact .inl hidle
    · rw [hnone] at hr; cases hr
  · exact (h.releaseClaims r).loadRecord index
  · exact (h.releaseClaims r).idle

theorem laneAtWork_advanceLane {w : LaneWork} (h : w.st.lanesSound) (i : Fin 8) :
    (advanceLane i w).st.LaneAtWork i Lane.reached := by
  have own := (State.lanesSound_iff_laneAtWork _ i).mp h
  simp only [advanceLane]
  split
  · rename_i hb
    refine own.setLane ?_ rfl
    rcases h.1 i with hidle | ⟨r, hr, hp, hs, he, hk, ho⟩
    · rw [hidle] at hb; cases hb
    · exact .inr ⟨r, hr, hp, hs, he, hk, ho⟩
  · exact own.imp fun _ => Lane.sound.reached

theorem State.LaneAtWork.applyReleaseOrder {w : LaneWork} {i : Fin 8} (h : w.st.LaneAtWork i Lane.reached) :
    (applyReleaseOrder i w).st.LaneAtWork i Lane.reached := by
  simp only [Machine.applyReleaseOrder]
  split
  · exact h
  · rename_i r hr
    refine h.setLane ?_ rfl
    rcases h.2.1 with hidle | ⟨r', hr', hp, hs, he, hk, ho⟩
    · rw [hidle] at hr; cases hr
    · refine .inr ⟨r', hr', hp, hs, he, ?_, ho⟩
      dsimp only
      split
      · rename_i hlt; exact (recomputedTotal_bounds r hlt.2).1
      · exact hk

/-- An abort or an abandonment leaves the lane IDLE with its claims given back (R42, R43). -/
theorem State.LaneAtWork.overAndIdle {s : State} {i : Fin 8} {P : Lane → Prop} (h : s.LaneAtWork i P) (r : Record) :
    ((Machine.releaseClaims i r s).setLane i Lane.idle).LaneAtWork i Lane.reached :=
  (h.releaseClaims r).setLane (.inl rfl) (h.releaseClaims r).2.1.symm

theorem State.LaneAtWork.applyAbortOrder {w : LaneWork} {i : Fin 8} (h : w.st.LaneAtWork i Lane.reached) :
    (applyAbortOrder i w).st.LaneAtWork i Lane.reached := by
  simp only [Machine.applyAbortOrder]
  split
  · exact h
  · exact h.overAndIdle _

theorem State.LaneAtWork.applyWaiting {w : LaneWork} {i : Fin 8} (h : w.st.LaneAtWork i Lane.reached) :
    (applyWaiting i w).st.LaneAtWork i Lane.reached := by
  unfold Machine.applyWaiting
  split
  · exact h
  · exact h.applyReleaseOrder
  · exact h.applyAbortOrder

theorem State.LaneAtWork.endIfDue {w : LaneWork} {i : Fin 8} (h : w.st.LaneAtWork i Lane.reached) :
    (endIfDue i w).st.lanesSound := by
  simp only [Machine.endIfDue]
  split
  · exact h.endRecord
  · rename_i hne
    refine (State.lanesSound_iff_laneAtWork _ i).mpr ⟨h.1, ?_, h.2.2⟩
    rcases h.2.1 with hidle | ⟨r, hr, hp, hs, he, hk, ho⟩
    · exact .inl hidle
    · refine .inr ⟨r, hr, hp, hs, he, Nat.lt_of_le_of_ne hk fun heq => hne ?_, ho⟩
      simp [Lane.busy, hp, heq]

theorem lanesSound_queueTrigger {w : LaneWork} (h : w.st.lanesSound) (i : Fin 8) (t : LaneTrigger)
    (hb : (w.st.lane i).busy = true) : (queueTrigger i t w).st.lanesSound := by
  simp only [queueTrigger]
  split
  · refine (State.lanesSound_iff_laneAtWork _ i).mpr
      (((State.lanesSound_iff_laneAtWork _ i).mp h).setLane ?_ rfl)
    rcases h.1 i with hidle | hrun
    · rw [hidle] at hb; cases hb
    · exact .inr hrun
  · exact h

theorem lanesSound_cutTrigger {w : LaneWork} (h : w.st.lanesSound) (i : Fin 8) (t : LaneTrigger) :
    (cutTrigger i t w).st.lanesSound := by
  have own := (State.lanesSound_iff_laneAtWork _ i).mp h
  simp only [cutTrigger]
  split
  · exact h
  · rename_i r hr
    rcases h.1 i with hidle | ⟨r', hr', hp, hs, he, hk, ho⟩
    · rw [hidle] at hr; cases hr
    · have bounds := recomputedTotal_bounds r hk
      split
      · split
        · exact State.LaneAtWork.endRecord (own.setLane (.inr ⟨r', hr', hp, hs, he, bounds.1, ho⟩) rfl)
        · rename_i hne
          exact (State.lanesSound_iff_laneAtWork _ i).mpr
            (own.setLane (.inr ⟨r', hr', hp, hs, he, Nat.lt_of_le_of_ne bounds.1 (Ne.symm hne), ho⟩) rfl)
      · exact (State.lanesSound_iff_laneAtWork _ i).mpr
          (own.setLane (.inr ⟨r', hr', hp, hs, he, hk, ho⟩) rfl)

theorem lanesSound_applyTrigger {w : LaneWork} (h : w.st.lanesSound) (i : Fin 8) (t : LaneTrigger) :
    (applyTrigger i w t).st.lanesSound := by
  unfold applyTrigger
  split
  · rename_i hb
    split
    · exact lanesSound_queueTrigger h i t hb
    · exact lanesSound_cutTrigger h i t
    · exact h
  · rename_i hb
    have idle := (h.1 i).eq_idle (Bool.eq_false_iff.mpr hb)
    exact State.LaneAtWork.loadRecord ⟨fun j _ => h.1 j, idle ▸ Lane.idle_claimless, h.2⟩ t.record

theorem lanesSound_applyTriggers {w : LaneWork} (h : w.st.lanesSound) (ts : List LaneTrigger) (i : Fin 8) :
    (applyTriggers ts i w).st.lanesSound :=
  List.foldlRecOn _ (applyTrigger i) (motive := fun w => w.st.lanesSound) h fun _ hw t _ => lanesSound_applyTrigger hw i t

theorem lanesSound_laneSteps {w : LaneWork} (h : w.st.lanesSound) (ts : List LaneTrigger) (i : Fin 8) :
    (laneSteps ts i w).st.lanesSound :=
  lanesSound_applyTriggers (laneAtWork_advanceLane h i).applyWaiting.endIfDue ts i

theorem lanesSound_abandonLanes (reason : EndReason) {s : State} (h : s.lanesSound) :
    (abandonLanes reason s).st.lanesSound := by
  refine List.foldlRecOn (List.finRange 8) (abandonLane reason) (b := LaneWork.start s)
    (motive := fun w => w.st.lanesSound) h fun w hw i _ => ?_
  simp only [abandonLane]
  split
  · exact hw
  · exact (((State.lanesSound_iff_laneAtWork _ i).mp hw).releaseClaims _).idle

/-- The phase of a lane without a copy is left alone. -/
theorem setPhases_lane_of_none {s : State} {i : Fin 8} (h : (s.lane i).copy = none) : (setPhases s).lane i = s.lane i := by
  simp only [State.lane, Fin.getElem_fin] at h
  simp [setPhases, State.lane, h]

/-- A lane that runs a record gets the phase at its k (R55). -/
theorem setPhases_lane_of_some {s : State} {i : Fin 8} {r : Record} (h : (s.lane i).copy = some r) :
    (setPhases s).lane i = { s.lane i with phase := phaseAt r (s.lane i).total (s.lane i).k } := by
  simp only [State.lane, Fin.getElem_fin] at h
  simp [setPhases, State.lane, h]

theorem setPhases_lane_slots (s : State) (i : Fin 8) : ((setPhases s).lane i).slots = (s.lane i).slots := by
  cases h : (s.lane i).copy with
  | none => rw [setPhases_lane_of_none h]
  | some r => rw [setPhases_lane_of_some h]

theorem lanesSound_setPhases {s : State} (h : s.lanesSound) : (setPhases s).lanesSound := by
  refine ⟨fun i => ?_, fun j i => ?_⟩
  · rcases h.1 i with hidle | ⟨r, hr, hp, hs, he, hk, ho⟩
    · rw [setPhases_lane_of_none (by rw [hidle]; rfl), hidle]
      exact Lane.idle_sound
    · rw [setPhases_lane_of_some hr]
      exact .inr ⟨r, hr, phaseAt_ne_idle r _ _, hs, he, hk, ho⟩
  · rw [setPhases_lane_slots]
    exact h.2 j i

/-! What a step keeps -/

/-- `t` keeps the soundness of the lanes that `s` has. -/
def State.KeepsLanes (s t : State) : Prop := s.lanesSound → t.lanesSound

theorem State.KeepsLanes.refl (s : State) : s.KeepsLanes s := id

theorem State.KeepsLanes.trans {s t u : State} (h : s.KeepsLanes t) (h' : t.KeepsLanes u) : s.KeepsLanes u := h' ∘ h

theorem State.keepsLanes_of_fields {s t : State} (hl : t.lanes = s.lanes) (hs : t.slots = s.slots) : s.KeepsLanes t := by
  unfold State.KeepsLanes State.lanesSound State.lane
  rw [hl, hs]
  exact id

theorem State.CaptureFollows.keepsLanes {s t : State} (h : s.CaptureFollows t) : s.KeepsLanes t := by
  unfold State.CaptureFollows at h
  rw [h]
  exact State.keepsLanes_of_fields rfl rfl

theorem State.keepsLanes_offerEvents (s : State) (es : List Event) : s.KeepsLanes (s.offerEvents es) :=
  State.keepsLanes_of_fields (by simp) (by simp)

theorem State.keepsLanes_restart (s : State) (station : BitVec 5) : s.KeepsLanes (s.restart station) := by
  have lane : ∀ i, (s.restart station).lane i = Lane.idle := fun i => by
    simp [State.restart, State.powerOn, State.lane]
  intro _
  refine ⟨fun i => lane i ▸ Lane.idle_sound, fun j i => ?_⟩
  rw [lane]
  simp [State.restart, State.powerOn, Lane.idle]

theorem State.keepsLanes_freeDoomed (s : State) : s.KeepsLanes s.freeDoomed.1 := by
  rw [State.freeDoomed_frame]
  exact State.keepsLanes_of_fields rfl rfl

theorem keepsLanes_finishLanes (es : List Event) (w : LaneWork) : w.st.KeepsLanes (finishLanes es w) := by
  simp only [finishLanes]
  refine (w.st.keepsLanes_freeDoomed).trans (State.KeepsLanes.trans ?_ (State.keepsLanes_offerEvents _ _))
  rw [admitAll_frame]
  exact State.keepsLanes_of_fields rfl rfl

theorem State.KeepsLanes.offerEvents {s t : State} (h : s.KeepsLanes t) (es : List Event) : s.KeepsLanes (t.offerEvents es) :=
  h.trans (t.keepsLanes_offerEvents es)

theorem State.KeepsLanes.offerEvent {s t : State} (h : s.KeepsLanes t) (e : Event) : s.KeepsLanes (t.offerEvent e) :=
  h.offerEvents [e]

/-! The arrival -/

theorem lanesSound_lanesWork (p : ArrivalPlan) {s : State} (h : s.lanesSound) : (lanesWork p s).lanes.st.lanesSound := by
  have units : ∀ turn (w : ArrivalWork), w.lanes.st.lanesSound → (unitsAt p s turn w).lanes.st.lanesSound :=
    fun turn w => (unitsAt_follows p s turn w).1.keepsLanes
  refine units 8 _ (List.foldlRecOn _ (laneAt p s) (motive := fun w => w.lanes.st.lanesSound) h fun w hw i _ => ?_)
  exact lanesSound_laneSteps (units _ w hw) p.triggers i

theorem keepsLanes_returnsWork (p : ArrivalPlan) (s : State) : s.KeepsLanes (returnsWork p s).1.lanes.st := by
  intro h
  simp only [returnsWork]
  exact (unitsAt_follows p s 9 _).1.keepsLanes (State.keepsLanes_freeDoomed _ (lanesSound_lanesWork p h))

theorem keepsLanes_frameWork (programme : SampleSet) (word : Option ControlWord) (s : State) :
    s.KeepsLanes (frameWork programme word s).1 := by
  intro h
  have started : ((arbitrate s word).emit s.dropDue).lanesSound := by
    cases arbitrate s word <;> exact h
  simp only [frameWork]
  rw [offerAndDepart_frame, orderUnitWork_frame, admitAll_frame]
  exact lanesSound_setPhases (keepsLanes_returnsWork _ _ started)

theorem State.keepsLanes_flushTriggers (s : State) : s.KeepsLanes s.flushTriggers := State.keepsLanes_of_fields rfl rfl

theorem keepsLanes_loseLink (s : State) : s.KeepsLanes (loseLink s) := by
  intro h
  have freed := State.keepsLanes_freeDoomed _ (lanesSound_abandonLanes .linkLost h)
  have stopped := (State.captureFollows_eachUnit (fun u s => s.captureFollows_loseUnit u) _).keepsLanes freed
  have discarded : ∀ t : State, t.KeepsLanes (loseAssembly t).1 := by
    intro t
    unfold loseAssembly
    split <;> exact State.keepsLanes_of_fields rfl rfl
  have passed : ∀ t : State, t.KeepsLanes { t with wordPos := 0 } := fun t => State.keepsLanes_of_fields rfl rfl
  simp only [loseLink]
  exact passed _ (State.keepsLanes_offerEvents _ _ (discarded _ (State.keepsLanes_flushTriggers _ stopped)))

/-! The orders -/

theorem State.captureFollows_openClip (c : Nat) (s : State) : s.CaptureFollows (openClip c s).st := by
  unfold openClip
  split <;> rfl

theorem State.captureFollows_closeClip (c : Nat) (s : State) : s.CaptureFollows (closeClip c s).st := by
  simp only [closeClip]
  repeat' split
  all_goals rfl

theorem State.captureFollows_deleteClip (c : Nat) (s : State) : s.CaptureFollows (deleteClip c s).st := by
  simp only [deleteClip]
  repeat' split
  all_goals rfl

theorem State.captureFollows_writeSamples (c : Nat) (xs : List Sample) (s : State) :
    s.CaptureFollows (writeSamples c xs s) := by
  induction xs generalizing s with
  | nil => rfl
  | cons x xs ih =>
    unfold writeSamples
    split
    · rfl
    · rename_i t ht; exact (State.captureFollows_writeClip ht).trans (ih t)

theorem State.captureFollows_clipOrder {act : Nat → State → OrderResult} (h : ∀ c s, State.CaptureFollows s (act c s).st)
    (body : List Payload) (s : State) : s.CaptureFollows (clipOrder act body s).st := by
  unfold clipOrder
  repeat' split
  · rfl
  · exact h _ s
  · rfl

theorem State.captureFollows_orderAppendClip (body : List Payload) (s : State) :
    s.CaptureFollows (orderAppendClip body s).st := by
  unfold orderAppendClip
  split
  · dsimp only
    split
    · rfl
    · split
      · rfl
      · split
        · rfl
        · split
          · rfl
          · exact State.captureFollows_writeSamples ..
  · rfl

theorem State.captureFollows_orderCancelCapture (body : List Payload) (s : State) :
    s.CaptureFollows (orderCancelCapture body s).st := by
  unfold orderCancelCapture
  split
  · split
    · rfl
    · split
      · rfl
      · exact s.captureFollows_cancelUnit ..
  · rfl

/-- A RELEASE or ABORT that waits leaves the lane what it was but for the waiting order (R40). -/
theorem keepsLanes_orderWaiting (order : WaitingOrder) (body : List Payload) (s : State) :
    s.KeepsLanes (orderWaiting order body s).st := by
  unfold orderWaiting
  repeat' split
  · exact State.KeepsLanes.refl s
  · rename_i i _ hb
    intro h
    refine (State.lanesSound_iff_laneAtWork _ i).mpr (((State.lanesSound_iff_laneAtWork _ i).mp h).setLane ?_ rfl)
    rcases h.1 i with hidle | hrun
    · rw [hidle] at hb; cases hb
    · exact .inr hrun
  · exact State.KeepsLanes.refl s
  · exact State.KeepsLanes.refl s

theorem keepsLanes_clearLanes (s : State) : s.KeepsLanes (clearLanes s).1 := by
  intro h
  simp only [clearLanes]
  exact State.keepsLanes_flushTriggers _ (State.keepsLanes_freeDoomed _ (lanesSound_abandonLanes .cleared h))

theorem keepsLanes_clearTables (s : State) : s.KeepsLanes (clearTables s) := State.keepsLanes_of_fields rfl rfl

theorem keepsLanes_clearStore (s : State) : s.KeepsLanes (clearStore s).1 := by
  simp only [clearStore]
  exact (State.captureFollows_eachUnit (fun u s => s.captureFollows_cancelUnit .cleared u) s).keepsLanes.trans
    (State.keepsLanes_of_fields rfl rfl)

theorem keepsLanes_orderClearStation (body : List Payload) (s : State) : s.KeepsLanes (orderClearStation body s).st := by
  have lanes := keepsLanes_clearLanes s
  unfold orderClearStation
  split
  · split
    · rw [clearScopeLanes_st]; exact lanes
    · rw [clearScopeTables_st]; exact lanes.trans (keepsLanes_clearTables _)
    · rw [clearScopeStore_st]; exact lanes.trans (keepsLanes_clearStore _)
    · rw [clearScopeAll_st]; exact (lanes.trans (keepsLanes_clearTables _)).trans (keepsLanes_clearStore _)
    · exact State.KeepsLanes.refl s
  · exact State.KeepsLanes.refl s

theorem keepsLanes_executeOrder {code : Nat} {body : List Payload} {f : State → OrderResult}
    (h : executeOrder code body = some f) (s : State) : s.KeepsLanes (f s).st := by
  have unchanged : ∀ {t : State}, t = s → s.KeepsLanes t := fun h => h ▸ State.KeepsLanes.refl s
  unfold executeOrder at h
  split at h <;> cases h
  · exact unchanged (orderReadStation_st body s)
  · exact keepsLanes_orderClearStation body s
  · rw [orderLoadRecord_frame]; exact State.keepsLanes_of_fields rfl rfl
  · rw [orderEraseRecord_frame]; exact State.keepsLanes_of_fields rfl rfl
  · exact unchanged (orderReadRecord_st body s)
  · rw [orderMapCue_frame]; exact State.keepsLanes_of_fields rfl rfl
  · rw [orderUnmapCue_frame]; exact State.keepsLanes_of_fields rfl rfl
  · exact unchanged (orderReadCueMap_st body s)
  · rw [orderTake_frame]; exact State.keepsLanes_of_fields rfl rfl
  · exact keepsLanes_orderWaiting .release body s
  · exact keepsLanes_orderWaiting .abort body s
  · exact unchanged (orderReadLane_st body s)
  · exact (State.captureFollows_clipOrder State.captureFollows_openClip body s).keepsLanes
  · exact (s.captureFollows_orderAppendClip body).keepsLanes
  · exact (State.captureFollows_clipOrder State.captureFollows_closeClip body s).keepsLanes
  · exact (State.captureFollows_clipOrder State.captureFollows_deleteClip body s).keepsLanes
  · exact unchanged (orderReadClip_st body s)
  · rw [orderCapture_frame]; exact State.keepsLanes_of_fields rfl rfl
  · exact (s.captureFollows_orderCancelCapture body).keepsLanes
  · rw [orderLoadLaw_frame]; exact State.keepsLanes_of_fields rfl rfl
  · exact unchanged (orderReadLaw_st body s)
  · exact unchanged (orderReadTriggers_st body s)

theorem State.keepsLanes_queueAck (s : State) (seq : BitVec 8) (body : List Nat) : s.KeepsLanes (s.queueAck seq body) :=
  State.keepsLanes_of_fields rfl rfl

theorem keepsLanes_takeRead (code seq : BitVec 8) {f : State → OrderResult} (hf : ∀ s, State.KeepsLanes s (f s).st)
    (s : State) : s.KeepsLanes (takeRead code seq f s) := by
  rcases takeRead_cases code seq f s with ⟨-, h⟩ | ⟨-, h⟩ <;> rw [h]
  · exact State.KeepsLanes.refl s
  · exact ((hf s).trans (State.keepsLanes_queueAck _ _ _)).offerEvents _

theorem keepsLanes_takeChange (code seq : BitVec 8) {f : State → OrderResult} (hf : ∀ s, State.KeepsLanes s (f s).st)
    (s : State) : s.KeepsLanes (takeChange code seq f s) := by
  rcases takeChange_cases code seq f s with ⟨-, h⟩ | ⟨-, status, -, h⟩ | ⟨-, -, h⟩ <;> rw [h]
  · exact State.KeepsLanes.refl s
  · exact s.keepsLanes_queueAck _ _
  · refine State.KeepsLanes.offerEvents ((hf s).trans ?_) _
    exact State.keepsLanes_of_fields rfl rfl

theorem keepsLanes_takeOrder (code seq : BitVec 8) (body : List Payload) (s : State) :
    s.KeepsLanes (takeOrder code seq body s) := by
  unfold takeOrder
  split
  · unfold takeUnknown
    split
    · exact State.KeepsLanes.refl s
    · exact s.keepsLanes_queueAck _ _
  · rename_i f hf
    split
    · exact keepsLanes_takeRead code seq (keepsLanes_executeOrder hf) s
    · exact keepsLanes_takeChange code seq (keepsLanes_executeOrder hf) s

theorem keepsLanes_takeComplete (order : Option Assembly) (s : State) : s.KeepsLanes (takeComplete order s) := by
  cases order with
  | none => exact State.KeepsLanes.refl s
  | some a => exact keepsLanes_takeOrder a.code a.seq a.body s

/-! The rows of the table -/

theorem keepsLanes_whenLocked {f : State → State} (h : ∀ s : State, s.KeepsLanes (f s)) (s : State) :
    s.KeepsLanes (whenLocked f s) := by
  unfold whenLocked
  split
  · exact h s
  · exact State.KeepsLanes.refl s

theorem State.keepsLanes_atNextCount {f : State → State} (h : ∀ s : State, s.KeepsLanes (f s)) (s : State) :
    s.KeepsLanes (s.atNextCount f) := fun hs =>
  State.keepsLanes_of_fields rfl rfl
    (h { s with frameCount := s.frameCount + 1 } (State.keepsLanes_of_fields rfl rfl hs))

theorem keepsLanes_arriveGood (samples : SampleSet) (word : ControlWord) (s : State) :
    s.KeepsLanes (arriveGood samples word s) := by
  have counted : s.KeepsLanes
      { s with frameCount := s.frameCount + 1, nextBit := s.nextBit + 448, badRun := 0, lastGood := samples } :=
    State.keepsLanes_of_fields rfl rfl
  exact (counted.trans (keepsLanes_frameWork samples (some word) _)).trans (keepsLanes_takeComplete _ _)

theorem keepsLanes_arriveLocked (line : LineFrame) (s : State) : s.KeepsLanes (arriveLocked line s) := by
  have received : ∀ lock confirm badRun frameCount nextBit waitingBits lineOut, s.KeepsLanes
      { s with lock := lock, confirm := confirm, badRun := badRun, frameCount := frameCount, nextBit := nextBit
               waitingBits := waitingBits, lineOut := lineOut } :=
    fun _ _ _ _ _ _ _ => State.keepsLanes_of_fields rfl rfl
  unfold arriveLocked
  dsimp only
  split
  · exact keepsLanes_arriveGood _ _ s
  · split
    · exact State.KeepsLanes.trans (received _ _ _ _ _ _ _) (keepsLanes_frameWork _ none _)
    · exact State.KeepsLanes.trans (received _ _ _ _ _ _ _) (keepsLanes_loseLink _)

theorem keepsLanes_meetDeadline (s : State) : s.KeepsLanes (meetDeadline s) := by
  unfold meetDeadline
  split
  · exact State.KeepsLanes.refl s
  · split
    · refine State.KeepsLanes.offerEvent ?_ _
      exact State.keepsLanes_of_fields rfl rfl
    · exact State.KeepsLanes.refl s

theorem keepsLanes_releaseLane (i : Fin 8) (s : State) : s.KeepsLanes (releaseLane i s) := by
  intro h
  have own : (LaneWork.start s).st.LaneAtWork i Lane.reached :=
    ((State.lanesSound_iff_laneAtWork s i).mp h).imp fun _ => Lane.sound.reached
  unfold releaseLane
  split
  · exact keepsLanes_finishLanes [] _ own.applyReleaseOrder.endIfDue
  · exact h

/-- An abort leaves the lane IDLE (R42). -/
theorem keepsLanes_abortLane (i : Fin 8) (s : State) : s.KeepsLanes (abortLane i s) := by
  intro h
  have own : (LaneWork.start s).st.LaneAtWork i Lane.sound := (State.lanesSound_iff_laneAtWork s i).mp h
  unfold abortLane
  split
  · refine keepsLanes_finishLanes [] _ ?_
    simp only [applyAbortOrder]
    split
    · exact h
    · exact (own.releaseClaims _).idle
  · exact h

theorem keepsLanes_reachEnd (i : Fin 8) (s : State) : s.KeepsLanes (reachEnd i s) := by
  unfold reachEnd
  dsimp only
  split
  · exact fun h => keepsLanes_finishLanes [] _ (State.LaneAtWork.endRecord
      (((State.lanesSound_iff_laneAtWork s i).mp h).imp fun _ => Lane.sound.reached))
  · split
    · exact State.keepsLanes_atNextCount (fun arrived h => keepsLanes_finishLanes [] _
        (State.LaneAtWork.endRecord (laneAtWork_advanceLane (w := LaneWork.start arrived) h i))) s
    · exact State.KeepsLanes.refl s

theorem State.captureFollows_startIf (delivered : Bool) (u : Fin 2) (s : State) :
    s.CaptureFollows (startIf delivered u s).1 := by
  unfold startIf
  split
  · exact s.captureFollows_startUnit u
  · rfl

theorem keepsLanes_deliverDue (s : State) : s.KeepsLanes (deliverDue s) := by
  refine State.keepsLanes_atNextCount (fun arrived h => keepsLanes_finishLanes _ _ ?_) s
  have dropped : arrived.dropDue.lanesSound := State.keepsLanes_of_fields rfl rfl h
  have started := (State.captureFollows_eachUnit
    (fun u s => s.captureFollows_startIf (arrivalPlan arrived s.lastGood).delivered[u] u) arrived.dropDue).keepsLanes dropped
  exact List.foldlRecOn (List.finRange 8) _ (motive := fun w : LaneWork => w.st.lanesSound)
    (b := LaneWork.start _) started fun w hw i _ => lanesSound_applyTriggers hw _ i

theorem keepsLanes_completeUnit (u : Fin 2) (s : State) : s.KeepsLanes (completeUnit u s) := by
  unfold completeUnit
  dsimp only
  split
  · exact (s.captureFollows_completeCapture u).keepsLanes.trans (State.keepsLanes_offerEvents _ _)
  · split
    · exact (s.captureFollows_writeUnit s.lastGood u).keepsLanes.trans (State.keepsLanes_offerEvents _ _)
    · exact State.KeepsLanes.refl s

theorem keepsLanes_execConfirmFrame {line : LineFrame} {s t : State} (h : execConfirmFrame line s = .next t) :
    s.KeepsLanes t := by
  simp only [execConfirmFrame] at h
  repeat' split at h
  all_goals cases h
  · exact State.KeepsLanes.refl s
  · refine State.KeepsLanes.offerEvent ?_ _
    exact State.keepsLanes_of_fields rfl rfl
  all_goals exact State.keepsLanes_of_fields rfl rfl

theorem keepsLanes_exec_of_no_order {c : Instr} (hc : orderParts c = none) {s t : State} (h : exec c s = .next t) :
    s.KeepsLanes t := by
  cases c with
  | powerOn straps => cases h; exact s.keepsLanes_restart straps
  | resetAssert => cases h; exact (s.keepsLanes_restart s.station).trans (State.keepsLanes_of_fields rfl rfl)
  | resetRelease straps =>
    simp only [exec, execResetRelease] at h
    split at h
    · cases h; exact (s.keepsLanes_restart straps).trans (State.keepsLanes_of_fields rfl rfl)
    · cases h; exact State.KeepsLanes.refl s
  | searchCandidate skipped candidate =>
    cases h
    rw [searchBits_frame]
    exact State.keepsLanes_of_fields rfl rfl
  | confirmFrame line => exact keepsLanes_execConfirmFrame h
  | frameArrival line =>
    simp only [exec, execFrameArrival] at h
    split at h
    · cases h; exact keepsLanes_arriveLocked line s
    · cases h; exact State.keepsLanes_of_fields rfl rfl
  | timeout => cases h; exact keepsLanes_whenLocked keepsLanes_meetDeadline s
  | applyRelease i => cases h; exact keepsLanes_whenLocked (keepsLanes_releaseLane i) s
  | applyAbort i => cases h; exact keepsLanes_whenLocked (keepsLanes_abortLane i) s
  | recordEnd i => cases h; exact keepsLanes_whenLocked (keepsLanes_reachEnd i) s
  | triggerFallsDue => cases h; exact keepsLanes_whenLocked keepsLanes_deliverDue s
  | captureComplete u => cases h; exact keepsLanes_whenLocked (keepsLanes_completeUnit u) s
  | cueOutSent =>
    rw [exec] at h
    rcases execCueOutSent_cases s with ⟨e, -, h'⟩ | ⟨-, h'⟩ <;> rw [h'] at h <;> cases h
    · exact keepsLanes_arriveGood _ _ s
    · exact State.KeepsLanes.refl s
  | reportWordSent =>
    rw [exec] at h
    rcases execReportWordSent_cases s with ⟨r, -, h'⟩ | ⟨-, h'⟩ <;> rw [h'] at h <;> cases h
    · exact keepsLanes_arriveGood _ _ s
    · exact State.KeepsLanes.refl s
  | _ => cases hc

theorem keepsLanes_exec {c : Instr} {s t : State} (h : exec c s = .next t) : s.KeepsLanes t := by
  cases hc : orderParts c with
  | none => exact keepsLanes_exec_of_no_order hc h
  | some parts =>
    obtain ⟨code, seq, body⟩ := parts
    rw [exec_of_orderParts hc] at h
    cases h
    exact keepsLanes_whenLocked (keepsLanes_takeOrder code seq body) s

/-- Settles O7: while a lane works, the others are sound and the Slot Table agrees (`State.LaneAtWork`); every operation ends
with all lanes sound. -/
theorem stepKeepsLanesAndSlotTable : Obligations.StepKeepsLanesAndSlotTable := by
  intro s t hs h
  unfold step at h
  split at h
  · cases h; exact hs
  · exact keepsLanes_exec h (State.keepsLanes_of_fields rfl rfl hs)

end Sys2Proof.Machine
end

section
/-! The orders that reach one lane, and the application of a waiting RELEASE or ABORT (R20, R40 to R42, R48). -/

namespace Sys2Proof.Machine

/-! RELEASE and ABORT wait (R40, R175, R176) -/

theorem Lane.busy_iff (l : Lane) : l.busy = true ↔ l.phase ≠ .idle := by simp [Lane.busy]

theorem orderWaiting_of_length {body : List Payload} (h : body.length ≠ 1) (order : WaitingOrder) (s : State) :
    orderWaiting order body s = .refuse .badLength s := by
  unfold orderWaiting
  split
  · exact absurd rfl h
  · rfl

theorem orderWaiting_of_field {w : Payload} (h : 7 < w.toNat) (order : WaitingOrder) (s : State) :
    orderWaiting order [w] s = .refuse .badField s := by
  simp only [orderWaiting, fieldBelow_of_ge (show 8 ≤ w.toNat from h)]

theorem orderWaiting_of_lane (order : WaitingOrder) (i : Fin 8) (s : State) :
    orderWaiting order (toPayloads [i.val]) s
      = if (s.lane i).phase = .idle then .refuse .wrongState s
        else .done (s.setLane i { s.lane i with waiting := some order }) := by
  simp only [toPayloads, List.map_cons, List.map_nil, orderWaiting, fieldBelow_ofNat i (by decide), Lane.busy_iff, ite_not]

/-- Settles O26: the three outcomes of `orderWaiting`, each taken and answered. -/
theorem releaseAndAbortWait : Obligations.ReleaseAndAbortWait := by
  intro s seq body order code i hi fresh
  have taken : exec i s = .next (whenLocked (takeChange code seq (orderWaiting order body)) s) := by
    rcases hi with ⟨rfl, rfl, rfl⟩ | ⟨rfl, rfl, rfl⟩ <;> rfl
  rw [taken]
  refine ⟨fun hlen => ?_, fun w hw hfield => ?_, fun lane hlane => ?_⟩
  · rw [takeChange_answered fresh (orderWaiting_of_length hlen order s)]
  · rw [takeChange_answered fresh (hw ▸ orderWaiting_of_field hfield order s)]
  · have placed := hlane ▸ orderWaiting_of_lane order lane s
    split
    · rename_i hidle
      rw [if_pos hidle] at placed
      rw [takeChange_answered fresh placed]
    · rename_i hbusy
      rw [if_neg hbusy] at placed
      rw [takeChange_answered fresh placed]
      rfl

/-! READ LANE (R48, R178, R179) -/

theorem orderReadLane_of_length {body : List Payload} (h : body.length ≠ 1) (s : State) :
    orderReadLane body s = .refuse .badLength s := by
  unfold orderReadLane
  split
  · exact absurd rfl h
  · rfl

theorem orderReadLane_of_field {w : Payload} (h : 7 < w.toNat) (s : State) :
    orderReadLane [w] s = .refuse .badField s := by
  simp only [orderReadLane, fieldBelow_of_ge (show 8 ≤ w.toNat from h)]

theorem orderReadLane_of_lane (i : Fin 8) (s : State) :
    orderReadLane (toPayloads [i.val]) s = .read (s.lane i).words s := by
  simp only [toPayloads, List.map_cons, List.map_nil, orderReadLane, fieldBelow_ofNat i (by decide)]

theorem Record.length_words (r : Record) : r.words.length = 14 + 2 * r.voices.length := by
  have pairs : (r.voices.flatMap fun v => [v.slot.val, v.clip.val]).length = 2 * r.voices.length := by
    induction r.voices with
    | nil => rfl
    | cons v vs ih => rw [List.flatMap_cons, List.length_append, ih]; simp only [List.length_cons, List.length_nil]; omega
  unfold Record.words
  cases r.endCue <;> simp only [List.length_append, pairs, List.length_cons, List.length_nil]

/-- Distinct slots: a record claims as many slots as it has voices (R2). -/
theorem Record.length_slotSet {r : Record} (h : (r.voices.map Voice.slot).Nodup) :
    r.slotSet.length = r.voices.length := by
  have same : r.slotSet.Perm (r.voices.map Voice.slot) := by
    refine (List.perm_ext_iff_of_nodup (r.slotSet_pairwise.imp Fin.ne_of_lt) h).mpr fun j => ?_
    rw [Record.mem_slotSet, List.mem_map]
  rw [same.length_eq, List.length_map]

theorem indexOr256_eq (o : Option (Fin 256)) : indexOr256 o = (o.map Fin.val).getD 256 := by
  cases o <;> rfl

theorem Lane.words_of_copy {l : Lane} {r : Record} (h : l.copy = some r) :
    l.words = [l.phase.code, (l.source.map Fin.val).getD 256, l.k / 16777216, l.k % 16777216, l.effLen,
      l.total / 16777216, l.total % 16777216, l.mark.code, (l.pending.map fun p => p.record.val).getD 256,
      (l.pending.map fun p => p.kind.code).getD 0, l.slots.length] ++ l.slots.map Fin.val ++ r.words := by
  unfold Lane.words
  rw [h, indexOr256_eq, indexOr256_eq, Option.map_map]
  rfl

/-- Settles O27: the refusals, and the words of an IDLE lane and of one that runs a record. -/
theorem readLaneReturnsTheContext : Obligations.ReadLaneReturnsTheContext := by
  unfold Obligations.ReadLaneReturnsTheContext
  intro phase mark kind s seq body taken sound
  have told : ∀ {status data}, orderReadLane body s = { status := status, data := data, st := s, events := [] } →
      exec (.readLane seq body) s = .next (s.told 12 seq status data) := fun h =>
    congrArg Host.Outcome.next (takeRead_told taken h)
  have phaseCode : ∀ p : Phase, p.code = phase p := fun p => by cases p <;> rfl
  have markCode : ∀ m : EndMark, m.code = mark m := fun m => by cases m <;> rfl
  have kindCode : ∀ k : PendingKind, k.code = kind k := fun k => by cases k <;> rfl
  refine ⟨fun hlen => told (orderReadLane_of_length hlen s), fun w hw hfield => told (hw ▸ orderReadLane_of_field hfield s),
    fun i hi => ?_⟩
  intro l context
  have read : orderReadLane body s = .read l.words s := hi ▸ orderReadLane_of_lane i s
  refine ⟨fun hidle => ?_, fun r hr => ?_⟩
  · rw [hidle] at read
    exact told read
  · have owned : l.slots = r.slotSet := by
      rcases sound.1 i with hidle | ⟨r', hr', -, -, -, -, hslots⟩
      · rw [show l = Lane.idle from hidle] at hr; cases hr
      · obtain rfl := Option.some.inj (hr.symm.trans hr')
        exact hslots
    have words : l.words = context ++ r.words := by
      rw [Lane.words_of_copy hr]
      simp only [phaseCode, markCode, kindCode, context]
    rw [words] at read
    refine ⟨told read, owned ▸ r.slotSet_pairwise, fun j => owned ▸ Record.mem_slotSet r j, fun hdistinct => ?_⟩
    simp only [context, List.length_append, List.length_map, List.length_cons, List.length_nil, Record.length_words, owned,
      Record.length_slotSet hdistinct]
    omega

/-! A waiting order is applied (R41, R42) -/

theorem State.laneAdvanced_self (s : State) (i : Fin 8) : s.LaneAdvanced s i s.frameCount := ⟨rfl, fun _ _ => rfl, rfl⟩

theorem State.laneAdvanced_setLane (s : State) (i : Fin 8) {l : Lane} (h : l.slots = (s.lane i).slots) :
    s.LaneAdvanced (s.setLane i l) i s.frameCount :=
  ⟨rfl, fun _ hj => (State.lane_setLane ..).trans (if_neg hj), by rw [State.lane_setLane, if_pos rfl, h]⟩

@[simp] theorem finishLanes_frameCount (es : List Event) (w : LaneWork) :
    (finishLanes es w).frameCount = w.st.frameCount := by
  simp only [finishLanes, State.offerEvents_frameCount]
  rw [admitAll_frame, State.freeDoomed_frame]

theorem State.with_frameCount_self {t : State} {now : FrameCount} (h : t.frameCount = now) :
    { t with frameCount := now } = t := by
  subst h
  rfl

theorem exec_applyAbort {s : State} (i : Fin 8) (hl : s.lock = .locked) :
    exec (.applyAbort i) s = .next (abortLane i s) :=
  congrArg Host.Outcome.next (whenLocked_of_locked _ hl)

theorem exec_applyRelease {s : State} (i : Fin 8) (hl : s.lock = .locked) :
    exec (.applyRelease i) s = .next (releaseLane i s) :=
  congrArg Host.Outcome.next (whenLocked_of_locked _ hl)

theorem State.ClaimsReturned.frameCount {s u : State} {i : Fin 8} {r : Record} {now : FrameCount}
    (h : s.ClaimsReturned u i r now) : u.frameCount = now := by
  rw [h.1]

/-- An end at the present count, with nothing to follow: the splice is over. -/
theorem State.ClaimsReturned.spliceOver_now {s : State} {i : Fin 8} {r : Record} {w : LaneWork}
    (h : s.ClaimsReturned w.st i r s.frameCount) (hs : s.Sound) (hr : (s.lane i).copy = some r) (hc : w.endCues.length ≤ 1) :
    let t := finishLanes [] (w.setLane i Lane.idle)
    ∃ missed dropped, s.endCueHandled t s.frameCount w.endCues missed dropped
      ∧ s.spliceOver t i r w.reports (missed ++ dropped) := by
  have count : (finishLanes [] (w.setLane i Lane.idle)).frameCount = s.frameCount :=
    (finishLanes_frameCount ..).trans h.frameCount
  have ended := h.spliceOver hs hr hc
  rwa [State.with_frameCount_self count] at ended

/-- The claims of lane `i` given back and its SPLICE ENDED raised, its context still there (R42, R43). -/
def LaneWork.stopped (i : Fin 8) (r : Record) (reason : EndReason) (w : LaneWork) : LaneWork where
  st := releaseClaims i r w.st
  reports := w.reports ++ endReport i (w.st.lane i) r reason
  endCues := w.endCues

theorem applyAbortOrder_of_copy {i : Fin 8} {r : Record} {w : LaneWork} (h : (w.st.lane i).copy = some r) :
    applyAbortOrder i w = (w.stopped i r .aborted).setLane i Lane.idle := by
  simp only [applyAbortOrder, h]
  rfl

/-- Settles O51: the claims are given back and the lane is IDLE, with no end cue. -/
theorem applyAbortEndsTheSplice : Obligations.ApplyAbortEndsTheSplice := by
  intro s i hs locked
  refine ⟨fun hnone => ?_, fun r hr hwaiting => ?_⟩
  · rw [exec_applyAbort i locked, abortLane, if_neg hnone]
  · have aborted := applyAbortOrder_of_copy (w := LaneWork.start s) hr
    have returned : s.ClaimsReturned ((LaneWork.start s).stopped i r .aborted).st i r s.frameCount :=
      (s.laneAdvanced_self i).releaseClaims hs.canonical hs.lanes r
    obtain ⟨missed, dropped, handled, spliced⟩ := returned.spliceOver_now hs hr (Nat.zero_le 1)
    obtain ⟨triggers, cueOut, rfl, rfl⟩ := handled.1 rfl
    rw [exec_applyAbort i locked, abortLane, if_pos hwaiting, aborted]
    exact ⟨_, rfl, triggers, cueOut, spliced⟩

/-! A waiting RELEASE is applied (R41) -/

/-- The context of a lane that runs `r` once its waiting RELEASE has been applied at its k (R41, R57). -/
def Lane.afterRelease (r : Record) (l : Lane) : Lane :=
  { l with
    pending := none
    mark := if l.mark = .unmarked then .released else l.mark
    total := if l.mark = .unmarked ∧ l.k < l.total then recomputedTotal r l.total l.k else l.total
    waiting := none }

theorem applyReleaseOrder_of_copy {i : Fin 8} {r : Record} {w : LaneWork} (h : (w.st.lane i).copy = some r) :
    applyReleaseOrder i w = (w.setLane i ((w.st.lane i).afterRelease r)).report (supersededReport i (w.st.lane i)) := by
  simp only [applyReleaseOrder, Lane.afterRelease, h]

theorem recomputedTotal_of_falls {r : Record} (hv : r.voices ≠ []) (hr : r.rOut.val ≠ 0) (total c : Nat) :
    recomputedTotal r total c = min total (c + fadeIndex r total c * r.rOut.val + 1) := by
  simp [recomputedTotal, Record.isPause, hv, hr]

/-- A lane whose counter has not reached its total runs on. -/
theorem endIfDue_of_ne {i : Fin 8} {w : LaneWork} (h : (w.st.lane i).k ≠ (w.st.lane i).total) : endIfDue i w = w := by
  simp [endIfDue, h]

theorem endIfDue_of_eq {i : Fin 8} {w : LaneWork} (hb : (w.st.lane i).busy = true)
    (h : (w.st.lane i).k = (w.st.lane i).total) : endIfDue i w = endRecord i w := by
  simp [endIfDue, hb, h]

/-- A sound station holds no DOOMED clip without uses (R76). -/
theorem State.Sound.doomedUnused {s u : State} (hs : s.Sound) (h : u.clips = s.clips) : u.doomedUnused = [] := by
  refine List.eq_nil_iff_forall_not_mem.mpr fun c hc => ?_
  rw [State.mem_doomedUnused (h ▸ hs.canonical.2.2.1), State.clip_congr h] at hc
  exact (hs.uses.2 c).2 hc.1 hc.2

/-- With no clip to free and no end cue, only the reports follow the lanes' work. -/
theorem finishLanes_of_nothing_freed {w : LaneWork} (hd : w.st.doomedUnused = []) (hc : w.endCues = []) (es : List Event) :
    finishLanes es w = w.st.offerEvents (w.reports ++ es) := by
  have freed : w.st.freeDoomed = (w.st, []) := by simp only [State.freeDoomed, hd]; rfl
  simp only [finishLanes, freed, hc, admitAll_nil, List.append_nil]

@[simp] theorem LaneWork.setLane_lane (w : LaneWork) (i j : Fin 8) (l : Lane) :
    (w.setLane i l).st.lane j = if j = i then l else w.st.lane j := State.lane_setLane ..

/-- Settles O50: `Lane.afterRelease` runs on while its total is above k, and ends its record when the recompute gives k. -/
theorem applyReleaseStartsTheFall : Obligations.ApplyReleaseStartsTheFall := by
  unfold Obligations.ApplyReleaseStartsTheFall
  intro s i hs locked l
  refine ⟨fun hnone => ?_, fun r hr hwaiting => ?_⟩
  · rw [exec_applyRelease i locked, releaseLane, if_neg hnone]
  intro superseded kept falling
  have below : l.k < l.total := (hs.lanes.1 i).k_lt_total hr
  have busy := (hs.lanes.1 i).busy hr
  have shown : supersededReport i l = superseded := by
    simp only [supersededReport, superseded]
    cases l.pending <;> rfl
  have ran : exec (.applyRelease i) s = .next (finishLanes [] (endIfDue i
      (((LaneWork.start s).setLane i (l.afterRelease r)).report superseded))) := by
    rw [exec_applyRelease i locked, releaseLane, if_pos hwaiting,
      applyReleaseOrder_of_copy (show ((LaneWork.start s).st.lane i).copy = some r from hr)]
    exact shown ▸ rfl
  have runsOn : ∀ l' : Lane, l.afterRelease r = l' → l'.k ≠ l'.total → exec (.applyRelease i) s = .next
      (({ s with lanes := s.lanes.set i l' } : State).offerEvents superseded) := by
    intro l' hl' hne
    rw [ran, hl', endIfDue_of_ne, finishLanes_of_nothing_freed (hs.doomedUnused rfl) rfl, List.append_nil]
    · rfl
    · simpa [LaneWork.report] using hne
  refine ⟨fun hmark => ?_, fun hmark hv hout => ?_, fun hmark hdone => ?_⟩
  · refine runsOn kept ?_ below.ne
    simp [Lane.afterRelease, hmark, kept]
  · refine runsOn falling ?_ ?_
    · simp [Lane.afterRelease, hmark, below, recomputedTotal_of_falls hv hout, falling, kept]
    · have := mt (recomputedTotal_eq_self_iff r below).mp (by simp [hv, hout])
      rw [recomputedTotal_of_falls hv hout] at this
      exact Ne.symm this
  · have due := (recomputedTotal_eq_self_iff r below).mpr hdone
    have ended : l.afterRelease r = { kept with mark := .released, total := l.k } := by
      simp [Lane.afterRelease, hmark, below, due, kept]
    let w := ((LaneWork.start s).setLane i (l.afterRelease r)).report superseded
    have own : w.st.lane i = { kept with mark := .released, total := l.k } :=
      ((State.lane_setLane ..).trans (if_pos rfl)).trans ended
    have over' : endIfDue i w = (w.ended i r).setLane i Lane.idle := by
      rw [endIfDue_of_eq (by rw [own]; exact busy) (by rw [own])]
      exact endRecord_of_nothing_follows (by rw [own]; exact hr) (by rw [own]) (.inl (by rw [own]; nofun))
    have returned : s.ClaimsReturned (w.ended i r).st i r s.frameCount :=
      (s.laneAdvanced_setLane i (l := l.afterRelease r) rfl).releaseClaims hs.canonical hs.lanes r
    have cues : (w.ended i r).endCues = r.endCue.toList := by
      simp only [LaneWork.ended, own]
      rfl
    have reports : (w.ended i r).reports = superseded
        ++ if r.reportEnd then [.spliceEnded i (l.source.getD 0) r.tag .released] else [] := by
      simp only [LaneWork.ended, own]
      rfl
    obtain ⟨missed, dropped, handled, spliced⟩ := returned.spliceOver_now hs hr (cues ▸ by cases r.endCue <;> simp)
    exact ⟨_, missed, dropped, ran.trans (congrArg (Host.Outcome.next <| finishLanes [] ·) over'), cues ▸ handled,
      reports ▸ spliced⟩

end Sys2Proof.Machine
end

section
/-! The link loss: every lane abandoned, the DOOMED clips freed, the capture units stopped, the order in assembly discarded
(R43, R44, R84, R98, R122, R130, R131, R150, R190). -/

namespace Sys2Proof.Machine

/-! Every lane abandoned (R43) -/

/-- How many voices of the record a lane runs name a clip (R76). -/
def Lane.usesOf (l : Lane) (c : Nat) : Nat := (l.copy.map fun r => r.voices.countP fun v => v.clip.val == c).getD 0

/-- The SPLICE ENDED that the abandonment of a lane raises, if its copy asks for one (R43). -/
def Lane.abandonReport (i : Fin 8) (reason : EndReason) (l : Lane) : List Event :=
  (l.copy.map fun r => endReport i l r reason).getD []

theorem State.voicesOf_eq (s : State) (c : Nat) :
    s.voicesOf c = ((List.finRange 8).map fun i => (s.lane i).usesOf c).sum := by
  unfold State.voicesOf Lane.usesOf
  refine congrArg List.sum (List.map_congr_left fun i _ => ?_)
  cases (s.lane i).copy <;> rfl

theorem State.abandonReports_eq (s : State) (reason : EndReason) :
    s.abandonReports reason = (List.finRange 8).flatMap fun i => (s.lane i).abandonReport i reason := by
  unfold State.abandonReports Lane.abandonReport
  refine List.flatMap_congr fun i _ => ?_
  cases (s.lane i).copy <;> rfl

theorem abandonLane_of_copy {reason : EndReason} {w : LaneWork} {i : Fin 8} {r : Record}
    (h : (w.st.lane i).copy = some r) :
    abandonLane reason w i = (w.stopped i r reason).setLane i Lane.idle := by
  simp only [abandonLane, h]
  rfl

theorem abandonLane_of_none {reason : EndReason} {w : LaneWork} {i : Fin 8} (h : (w.st.lane i).copy = none) :
    abandonLane reason w i = w := by
  simp only [abandonLane, h]

/-- One lane abandoned: it is IDLE, its uses are given back, its report is raised, and no end cue is handed on. -/
theorem abandonLane_spec (reason : EndReason) {w : LaneWork} {i : Fin 8} (hc : sparseSorted w.st.clips = true)
    (hl : (w.st.lane i).sound) :
    let w' := abandonLane reason w i
    sparseSorted w'.st.clips = true ∧ (∀ j, w'.st.lane j = if j = i then Lane.idle else w.st.lane j)
      ∧ (∀ c, w'.st.clip c = { w.st.clip c with uses := (w.st.clip c).uses - (w.st.lane i).usesOf c })
      ∧ w'.reports = w.reports ++ (w.st.lane i).abandonReport i reason ∧ w'.endCues = w.endCues := by
  dsimp only
  cases hcopy : (w.st.lane i).copy with
  | none =>
    have idle : w.st.lane i = Lane.idle := by
      rcases hl with hidle | ⟨r, hr, -⟩
      · exact hidle
      · rw [hr] at hcopy; cases hcopy
    rw [abandonLane_of_none hcopy, idle]
    refine ⟨hc, fun j => ?_, fun c => rfl, (List.append_nil _).symm, rfl⟩
    split
    · rename_i hj; rw [hj, idle]
    · rfl
  | some r =>
    obtain ⟨hsorted, hlane, -, hclip⟩ := releaseClaims_spec hc i r
    rw [abandonLane_of_copy hcopy]
    refine ⟨hsorted, fun j => ?_, fun c => ?_, ?_, rfl⟩
    · rw [LaneWork.setLane_lane]
      split
      · rfl
      · rename_i hj; exact (hlane j).trans (if_neg hj)
    · simp only [Lane.usesOf, hcopy, Option.map_some, Option.getD_some]
      exact hclip c
    · simp only [Lane.abandonReport, hcopy, Option.map_some, Option.getD_some]
      rfl

/-- A row of different lanes abandoned, one after another. -/
theorem abandonRow_spec (reason : EndReason) {is : List (Fin 8)} (his : is.Nodup) {w : LaneWork}
    (hc : sparseSorted w.st.clips = true) (hl : ∀ i, (w.st.lane i).sound) :
    let w' := is.foldl (abandonLane reason) w
    sparseSorted w'.st.clips = true ∧ (∀ j, w'.st.lane j = if j ∈ is then Lane.idle else w.st.lane j)
      ∧ (∀ c, w'.st.clip c = { w.st.clip c with
          uses := (w.st.clip c).uses - (is.map fun i => (w.st.lane i).usesOf c).sum })
      ∧ w'.reports = w.reports ++ is.flatMap (fun i => (w.st.lane i).abandonReport i reason)
      ∧ w'.endCues = w.endCues := by
  induction is generalizing w with
  | nil => exact ⟨hc, fun _ => rfl, fun _ => rfl, (List.append_nil _).symm, rfl⟩
  | cons i is ih =>
    obtain ⟨hi, his⟩ := List.nodup_cons.mp his
    obtain ⟨sorted, lane, clip, reports, cues⟩ := abandonLane_spec reason hc (hl i)
    have others : ∀ j ∈ is, (abandonLane reason w i).st.lane j = w.st.lane j := fun j hj => by
      rw [lane, if_neg]
      rintro rfl
      exact hi hj
    have sound : ∀ j, ((abandonLane reason w i).st.lane j).sound := fun j => by
      rw [lane]
      split
      · exact Lane.idle_sound
      · exact hl j
    obtain ⟨sorted', lane', clip', reports', cues'⟩ := ih his sorted sound
    refine ⟨sorted', fun j => ?_, fun c => ?_, ?_, cues'.trans cues⟩
    · rw [List.foldl_cons, lane', lane]
      by_cases hj : j ∈ is
      · rw [if_pos hj, if_pos (List.mem_cons_of_mem _ hj)]
      · simp only [List.mem_cons, hj, or_false, if_false]
    · rw [List.foldl_cons, clip', clip, List.map_cons, List.sum_cons, Nat.sub_add_eq,
        List.map_congr_left fun j hj => congrArg (·.usesOf c) (others j hj)]
    · rw [List.foldl_cons, reports', reports, List.flatMap_cons, List.append_assoc,
        List.flatMap_congr fun j hj => congrArg (·.abandonReport j reason) (others j hj)]

/-- Every lane of a station whose uses are sound abandoned: all are IDLE and own no slot, and no clip counts a use. -/
theorem abandonLanes_spec (reason : EndReason) {s : State} (hc : sparseSorted s.clips = true) (hl : s.lanesSound)
    (hu : s.usesSound) :
    let w := abandonLanes reason s
    sparseSorted w.st.clips = true ∧ (∀ i, w.st.lane i = Lane.idle) ∧ (∀ j : Fin 16, w.st.slots[j] = none)
      ∧ (∀ c, w.st.clip c = { s.clip c with uses := 0 }) ∧ w.reports = s.abandonReports reason ∧ w.endCues = [] := by
  have all : (List.finRange 8).foldl (abandonLane reason) (LaneWork.start s) = abandonLanes reason s := rfl
  have spec := abandonRow_spec reason (w := LaneWork.start s) (List.nodup_finRange 8) hc hl.1
  rw [all] at spec
  obtain ⟨sorted, lane, clip, reports, cues⟩ := spec
  have idle : ∀ i, (abandonLanes reason s).st.lane i = Lane.idle := fun i =>
    (lane i).trans (if_pos (List.mem_finRange i))
  refine ⟨sorted, idle, fun j => ?_, fun c => (clip c).trans ?_, ?_, cues⟩
  · refine Option.eq_none_iff_forall_ne_some.mpr fun i hi => ?_
    have owned := ((lanesSound_abandonLanes reason hl).2 j i).mp hi
    rw [idle] at owned
    cases owned
  · have counted : (s.clip c).uses = ((List.finRange 8).map fun i => (s.lane i).usesOf c).sum := by
      rw [hu.1 c, s.voicesOf_eq]
    show ({ s.clip c with uses := (s.clip c).uses - ((List.finRange 8).map fun i => (s.lane i).usesOf c).sum } : Clip) = _
    rw [← counted, Nat.sub_self]
  · rw [s.abandonReports_eq]
    exact reports

/-! The DOOMED clips freed (R67, R76) -/

theorem State.mem_doomedClips {s : State} (h : sparseSorted s.clips = true) (c : Nat) :
    c ∈ s.doomedClips ↔ (s.clip c).state = .doomed :=
  (State.mem_filter_clips h (fun _ => rfl) c).trans (by simp)

/-- Once no clip counts a use, the clips freed are all that were DOOMED. -/
theorem State.doomedUnused_of_unused {s u : State} (hs : sparseSorted s.clips = true) (hu : sparseSorted u.clips = true)
    (hc : ∀ c, u.clip c = { s.clip c with uses := 0 }) : u.doomedUnused = s.doomedClips := by
  refine (pairwise_lt_filter_fst hu _).eq_of_mem_iff (pairwise_lt_filter_fst hs _) fun c => ?_
  refine (State.mem_doomedUnused hu c).trans (Iff.trans ?_ (State.mem_doomedClips hs c).symm)
  rw [hc c]
  exact and_iff_left rfl

/-- Every clip once its uses are given back and every DOOMED one is freed. -/
theorem State.freeDoomed_of_unused {s u : State} (hs : sparseSorted s.clips = true) (hu : sparseSorted u.clips = true)
    (hc : ∀ c, u.clip c = { s.clip c with uses := 0 }) :
    sparseSorted u.freeDoomed.1.clips = true
      ∧ (∀ c, u.freeDoomed.1.clip c = if (s.clip c).state = .doomed then Clip.freed else { s.clip c with uses := 0 })
      ∧ u.freeDoomed.1.freeBlocks = u.freeBlocks ++ s.doomedClips.flatMap (fun c => (s.clip c).chain)
      ∧ u.freeDoomed.2 = s.doomedClips.map Event.clipFreed := by
  have freed := State.doomedUnused_of_unused hs hu hc
  obtain ⟨sorted, clip, -⟩ := State.freeDoomed_spec hu
  refine ⟨sorted, fun c => ?_, ?_, congrArg (List.map Event.clipFreed) freed⟩
  · rw [clip, hc c]
    simp only [and_true]
  · have nodup : u.doomedUnused.Nodup := (pairwise_lt_filter_fst hu _).imp Nat.ne_of_lt
    refine (State.freeBlocks_freeClips hu nodup).trans ?_
    rw [freed]
    refine congrArg (u.freeBlocks ++ ·) (List.flatMap_congr fun c _ => ?_)
    rw [hc c]

/-! The capture units stopped (R98) -/

/-- A clip that a unit fills, at the loss of the link: FREE when it holds no sample, otherwise READY and short (R98). -/
def Clip.cutShort (v : Clip) : Clip :=
  if v.length = 0 then Clip.freed else { v with state := .ready, filler := none, short := true }

@[simp] theorem Clip.cutShort_filler (v : Clip) : v.cutShort.filler = none := by
  unfold Clip.cutShort
  split <;> rfl

/-- What a unit reports at the loss of the link (R98). -/
def CaptureUnit.lossReport (u : Fin 2) (v : CaptureUnit) : List Event :=
  match v.state with
  | .idle => []
  | .armed => [.captureCancelled u v.clipNumber .linkLost]
  | .recording => [.captureDone u v.clipNumber v.written .linkLost]

/-- Unit `u` is sound, and every clip whose filler it is is its own and sound (R68 to R70, R86, R87). -/
def State.unitHolds (s : State) (u : Fin 2) : Prop :=
  unitSound s u ∧ ∀ c, (s.clip c).filler = some (.unit u) → (s.unit u).clip.map Fin.val = some c ∧ (s.clip c).sound

theorem State.captureSound.unitHolds {s : State} (h : s.captureSound) (u : Fin 2) : s.unitHolds u := by
  refine ⟨h.2.1 u, fun c hc => ?_⟩
  have listed : (c, s.clip c) ∈ s.clips := State.mem_of_clip fun hf => by rw [hf] at hc; cases hc
  exact ⟨h.2.2 _ listed u hc, h.1 _ listed⟩

theorem Clip.freed_sound : Clip.freed.sound := ⟨fun _ => rfl, nofun, by decide, rfl⟩

theorem State.captureSound.clip {s : State} (h : s.captureSound) (c : Nat) : (s.clip c).sound := by
  by_cases hf : s.clip c = Clip.freed
  · rw [hf]; exact Clip.freed_sound
  · exact h.1 _ (State.mem_of_clip hf)

/-- A clip with a filler is not DOOMED (R70). -/
theorem Clip.sound.not_doomed {v : Clip} (h : v.sound) (hf : v.filler.isSome = true) : v.state ≠ .doomed := by
  intro hd
  rcases h.2.2.1.mp hf with hs | hs <;> rw [hd] at hs <;> cases hs

/-- The use count is none of what R68 to R70 ask of a clip that is not FREE. -/
theorem Clip.sound.unused {v : Clip} (h : v.sound) (hf : v.filler.isSome = true) : ({ v with uses := 0 } : Clip).sound := by
  obtain ⟨hfree, hrest⟩ := h
  refine ⟨fun hs => ?_, hrest⟩
  rw [hfree hs] at hf
  cases hf

/-- What is read of a unit and its clip is what `unitHolds` reads. -/
theorem State.unitHolds.congr {s t : State} {u : Fin 2} (h : s.unitHolds u) (hu : t.unit u = s.unit u)
    (hf : ∀ c, (t.clip c).filler = some (.unit u) ↔ (s.clip c).filler = some (.unit u))
    (hc : ∀ c, (s.clip c).filler = some (.unit u) → (t.clip c).state = (s.clip c).state
      ∧ (t.clip c).length = (s.clip c).length ∧ ((s.clip c).sound → (t.clip c).sound)) : t.unitHolds u := by
  obtain ⟨sound, own⟩ := h
  refine ⟨?_, fun c hfill => ?_⟩
  · rcases sound with hidle | ⟨c, hclip, hslot, hfill, hlen, hw, hst⟩
    · exact .inl (hu.trans hidle)
    · obtain ⟨state, length, -⟩ := hc c.val hfill
      refine .inr ⟨c, ?_, ?_, (hf _).mpr hfill, ?_, ?_, ?_⟩
      · rw [hu]; exact hclip
      · rw [hu]; exact hslot
      · rw [hu, length]; exact hlen
      · rw [hu]; exact hw
      · rw [hu, state]; exact hst
  · have hfill' := (hf c).mp hfill
    obtain ⟨hclip, hsound⟩ := own c hfill'
    exact ⟨hu ▸ hclip, (hc c hfill').2.2 hsound⟩

theorem loseUnit_frame (u : Fin 2) (s : State) : (loseUnit u s).1
    = { s with units := (loseUnit u s).1.units, clips := (loseUnit u s).1.clips
               freeBlocks := (loseUnit u s).1.freeBlocks } := by
  unfold loseUnit
  split
  · rfl
  · unfold cancelUnit
    dsimp only
    split <;> rfl
  · unfold endCaptureShort
    dsimp only
    split <;> rfl

/-- A unit at the loss of the link: IDLE, its clip cut short, its report raised, no block returned (R98). -/
theorem loseUnit_spec {s : State} {u : Fin 2} (hc : sparseSorted s.clips = true) (h : s.unitHolds u) :
    let t := (loseUnit u s).1
    sparseSorted t.clips = true ∧ (∀ v, t.unit v = if v = u then CaptureUnit.idle else s.unit v)
      ∧ (∀ c, t.clip c = if (s.clip c).filler = some (.unit u) then (s.clip c).cutShort else s.clip c)
      ∧ t.freeBlocks = s.freeBlocks ∧ (loseUnit u s).2 = (s.unit u).lossReport u := by
  obtain ⟨sound, own⟩ := h
  rcases sound with hidle | ⟨c, hclip, -, hfill, hlen, -, hst⟩
  · have nothing : loseUnit u s = (s, []) := by unfold loseUnit; rw [hidle]; rfl
    rw [nothing]
    refine ⟨hc, fun v => ?_, fun c => ?_, rfl, by rw [hidle]; rfl⟩
    · split
      · rename_i hv; rw [hv, hidle]
      · rfl
    · rw [if_neg]
      intro hfill
      have := (own c hfill).1
      rw [hidle] at this
      cases this
  · have number : (s.unit u).clipNumber = c.val := by simp [CaptureUnit.clipNumber, hclip]
    have owned : ∀ d, (s.clip d).filler = some (.unit u) ↔ d = c.val := by
      refine fun d => ⟨fun hd => ?_, fun hd => hd ▸ hfill⟩
      have := (own d hd).1
      rw [hclip] at this
      exact (Option.some.inj this).symm
    have empty : (s.clip c.val).length = 0 → (s.clip c.val).chain = [] := fun h0 => by
      have blocks := (own c.val hfill).2.2.2.2
      rw [h0] at blocks
      exact List.length_eq_zero_iff.mp blocks
    have freed : (s.clip c.val).length = 0 → ∀ d, (s.freeClip c.val).clip d
        = if (s.clip d).filler = some (.unit u) then (s.clip d).cutShort else s.clip d := fun h0 d => by
      rw [State.clip_freeClip hc]
      simp only [owned]
      split
      · rename_i hd; rw [hd, Clip.cutShort, if_pos h0]
      · rfl
    rcases hst with ⟨harmed, hres, -⟩ | ⟨hrec, hfilling, -⟩
    · have h0 : (s.clip c.val).length = 0 := ((own c.val hfill).2.2.1 hres).1
      have lost : loseUnit u s = ((s.freeClip c.val).setUnit u CaptureUnit.idle, [.captureCancelled u c.val .linkLost]) := by
        simp [loseUnit, cancelUnit, harmed, number]
      rw [lost]
      refine ⟨State.sorted_setClip hc c.val Clip.freed, fun v => ?_, freed h0, ?_, ?_⟩
      · rw [State.unit_setUnit, State.unit_congr (State.freeClip_units ..)]
      · rw [State.setUnit_freeBlocks, State.freeClip_freeBlocks, empty h0, List.append_nil]
      · simp [CaptureUnit.lossReport, harmed, number]
    · by_cases hw : (s.unit u).written = 0
      · have h0 : (s.clip c.val).length = 0 := hlen.trans hw
        have lost : loseUnit u s = ((s.setUnit u CaptureUnit.idle).freeClip c.val, [.captureDone u c.val 0 .linkLost]) := by
          simp [loseUnit, endCaptureShort, hrec, number, hw]
        rw [lost]
        refine ⟨State.sorted_setClip hc c.val Clip.freed, fun v => ?_, freed h0, ?_, ?_⟩
        · rw [State.unit_congr (State.freeClip_units ..), State.unit_setUnit]
        · rw [State.freeClip_freeBlocks]
          exact (congrArg (s.freeBlocks ++ ·) (empty h0)).trans (List.append_nil _)
        · simp [CaptureUnit.lossReport, hrec, number, hw]
      · have lost : loseUnit u s = ((s.setUnit u CaptureUnit.idle).setClip c.val
            { s.clip c.val with state := .ready, filler := none, short := true },
            [.captureDone u c.val (s.unit u).written .linkLost]) := by
          simp only [loseUnit, endCaptureShort, hrec, number, if_neg hw]
        rw [lost]
        refine ⟨State.sorted_setClip hc c.val _, fun v => ?_, fun d => ?_, rfl, ?_⟩
        · rw [State.unit_congr (State.setClip_units ..), State.unit_setUnit]
        · rw [State.clip_setClip (by exact hc)]
          simp only [owned]
          split
          · rename_i hd; rw [hd, Clip.cutShort, if_neg (hlen ▸ hw)]
          · rfl
        · simp [CaptureUnit.lossReport, hrec, number]

/-- Both units at the loss of the link, unit 0 first. -/
theorem loseUnits_spec {s : State} (hc : sparseSorted s.clips = true) (h : ∀ u, s.unitHolds u) :
    let t := (eachUnit loseUnit s).1
    t = { s with units := t.units, clips := t.clips, freeBlocks := t.freeBlocks }
      ∧ (∀ u, t.unit u = CaptureUnit.idle)
      ∧ (∀ c, t.clip c = if ∃ u, (s.clip c).filler = some (.unit u) then (s.clip c).cutShort else s.clip c)
      ∧ t.freeBlocks = s.freeBlocks
      ∧ (eachUnit loseUnit s).2 = (List.finRange 2).flatMap fun u => (s.unit u).lossReport u := by
  obtain ⟨sorted, unit, clip, blocks, reports⟩ := loseUnit_spec hc (h 0)
  have frame := loseUnit_frame 0 s
  have still : ∀ c, (s.clip c).filler = some (.unit 1) → (loseUnit 0 s).1.clip c = s.clip c := fun c hfill => by
    rw [clip, if_neg]
    rw [hfill]
    decide
  have holds : (loseUnit 0 s).1.unitHolds 1 := by
    refine (h 1).congr ((unit 1).trans (if_neg (by decide))) (fun c => ⟨fun hfill => ?_, fun hfill => ?_⟩) fun c hfill => ?_
    · rw [clip] at hfill
      split at hfill
      · rw [Clip.cutShort_filler] at hfill; cases hfill
      · exact hfill
    · rw [still c hfill]; exact hfill
    · rw [still c hfill]; exact ⟨rfl, rfl, id⟩
  obtain ⟨-, unit', clip', blocks', reports'⟩ := loseUnit_spec sorted holds
  have frame' := loseUnit_frame 1 (loseUnit 0 s).1
  simp only [eachUnit]
  refine ⟨?_, Fin.forall_fin_two.mpr ⟨?_, ?_⟩, fun c => ?_, blocks'.trans blocks, ?_⟩
  · rw [frame', frame]
  · rw [unit', unit]; rfl
  · rw [unit']; rfl
  · rw [clip', clip]
    by_cases h0 : (s.clip c).filler = some (.unit 0) <;> simp [Fin.exists_fin_two, h0]
  · rw [reports, reports', unit, if_neg (by decide)]
    simp [List.finRange_succ]

/-! The whole loss (R131, R190) -/

/-- What the discard of an order in assembly reports (R150). -/
def Assembly.lossReport (a : Option Assembly) : List Event := (a.map fun a => .orderDiscarded a.seq .linkLost).toList

theorem loseAssembly_eq (s : State) : loseAssembly s = ({ s with assembly := none }, Assembly.lossReport s.assembly) := by
  unfold loseAssembly
  cases h : s.assembly with
  | none => exact congrArg (·, []) (congrArg (fun a => ({ s with assembly := a } : State)) h)
  | some a => rfl

/-- A clip at the loss of the link: what DOOMED and RESERVED clips, the clips of a unit and all others become (R98, R131). -/
def Clip.afterLoss (v : Clip) : Clip :=
  if v.state = .doomed ∨ v.state = .reserved then Clip.freed
  else if v.state = .filling ∧ v.filler ≠ some .management then
    if v.length = 0 then Clip.freed else { v with state := .ready, filler := none, short := true }
  else { v with uses := 0 }

/-- A clip whose filler is not management, if it has one, is filled by a unit. -/
theorem Clip.filler_unit {v : Clip} (h : v.filler.isSome = true) (hm : v.filler ≠ some .management) :
    ∃ u, v.filler = some (.unit u) := by
  cases hf : v.filler with
  | none => rw [hf] at h; cases h
  | some f =>
    cases f with
    | unit u => exact ⟨u, rfl⟩
    | management => exact absurd hf hm

/-- What every clip becomes is what the abandonment, the freeing and the units' losses make of it together. -/
theorem Clip.afterLoss_eq {v w : Clip} (h : v.sound) (hu : v.uses ≠ 0 → v.state = .ready ∨ v.state = .doomed)
    (hw : w = if v.state = .doomed then Clip.freed else { v with uses := 0 }) :
    v.afterLoss = if ∃ u, w.filler = some (.unit u) then w.cutShort else w := by
  obtain ⟨-, hres, hfill, -⟩ := h
  cases hst : v.state with
  | doomed =>
    rw [if_pos hst] at hw
    simp [Clip.afterLoss, hst, hw, Clip.freed]
  | reserved =>
    obtain ⟨hlen, hman⟩ := hres hst
    have byUnit := Clip.filler_unit (hfill.mpr (.inl hst)) hman
    rw [if_neg (by rw [hst]; nofun)] at hw
    simp [Clip.afterLoss, hst, hw, byUnit, Clip.cutShort, hlen]
  | filling =>
    have unused : v.uses = 0 := by
      by_contra hne
      rcases hu hne with hr | hd
      · rw [hst] at hr; cases hr
      · rw [hst] at hd; cases hd
    rw [if_neg (by rw [hst]; nofun)] at hw
    by_cases hman : v.filler = some .management
    · simp [Clip.afterLoss, hst, hw, hman]
    · have byUnit := Clip.filler_unit (hfill.mpr (.inr hst)) hman
      simp [Clip.afterLoss, hst, hw, hman, byUnit, Clip.cutShort, unused]
  | free | ready =>
    have none : v.filler = none := by
      have := mt hfill.mp (by simp [hst])
      simpa using this
    rw [if_neg (by rw [hst]; nofun)] at hw
    simp [Clip.afterLoss, hst, hw, none]

/-- The station once every lane is abandoned and the DOOMED clips are freed (R43, R76). -/
def State.abandoned (s : State) (reason : EndReason) : State := (abandonLanes reason s).st.freeDoomed.1

theorem State.abandoned_spec (reason : EndReason) {s : State} (hc : sparseSorted s.clips = true) (hl : s.lanesSound)
    (hu : s.usesSound) :
    let t := s.abandoned reason
    sparseSorted t.clips = true ∧ (∀ i, t.lane i = Lane.idle) ∧ (∀ j : Fin 16, t.slots[j] = none)
      ∧ (∀ c, t.clip c = if (s.clip c).state = .doomed then Clip.freed else { s.clip c with uses := 0 })
      ∧ t.freeBlocks = s.freeBlocks ++ s.doomedClips.flatMap (fun c => (s.clip c).chain)
      ∧ (abandonLanes reason s).st.freeDoomed.2 = s.doomedClips.map Event.clipFreed
      ∧ t = { s with lanes := t.lanes, slots := t.slots, clips := t.clips, freeBlocks := t.freeBlocks } := by
  obtain ⟨sorted, lanes, slots, unused, -⟩ := abandonLanes_spec reason hc hl hu
  have follows : (abandonLanes reason s).st = { s with lanes := _, slots := _, clips := _ } :=
    (LaneWork.follows_abandonLanes reason s).1
  obtain ⟨sorted', clips, blocks, freed⟩ := State.freeDoomed_of_unused hc sorted unused
  unfold State.abandoned
  generalize (abandonLanes reason s).st = a at *
  have returned := State.freeDoomed_frame a
  have list : a.freeBlocks = s.freeBlocks := by rw [follows]
  generalize a.freeDoomed = f at *
  have sameLanes : f.1.lanes = a.lanes := by rw [returned]
  have sameSlots : f.1.slots = a.slots := by rw [returned]
  refine ⟨sorted', fun i => (State.lane_congr sameLanes i).trans (lanes i), fun j => sameSlots ▸ slots j, clips,
    list ▸ blocks, freed, ?_⟩
  rw [returned, follows]

theorem loseLink_eq (s : State) :
    loseLink s = { State.offerEvents
      { (eachUnit loseUnit (s.abandoned .linkLost)).1 with triggers := [], cueOut := [], assembly := none }
      ([.linkLost s.frameCount] ++ (abandonLanes .linkLost s).reports ++ (abandonLanes .linkLost s).st.freeDoomed.2
        ++ (eachUnit loseUnit (s.abandoned .linkLost)).2
        ++ Assembly.lossReport (eachUnit loseUnit (s.abandoned .linkLost)).1.assembly) with
      wordPos := 0 } := by
  simp only [loseLink, loseAssembly_eq, State.flushTriggers, State.abandoned]

/-- What the loss of the link leaves of a sound station, block by block, and the reports it offers (R131, R190). -/
theorem loseLink_spec {s : State} (hc : sparseSorted s.clips = true) (hl : s.lanesSound) (hu : s.usesSound)
    (hcap : s.captureSound) :
    let t := loseLink s
    (∀ i, t.lane i = Lane.idle) ∧ (∀ j : Fin 16, t.slots[j] = none) ∧ (∀ u, t.unit u = CaptureUnit.idle)
      ∧ (∀ c, t.clip c = (s.clip c).afterLoss)
      ∧ t.freeBlocks = s.freeBlocks ++ s.doomedClips.flatMap (fun c => (s.clip c).chain)
      ∧ t.reportsAfter s ([.linkLost s.frameCount] ++ s.abandonReports .linkLost ++ s.doomedClips.map Event.clipFreed
          ++ ((List.finRange 2).flatMap fun u => (s.unit u).lossReport u) ++ Assembly.lossReport s.assembly)
      ∧ t = { s with
          wordPos := 0, assembly := none, triggers := [], cueOut := [], lanes := t.lanes, slots := t.slots, units := t.units
          clips := t.clips, freeBlocks := t.freeBlocks, reports := t.reports, lost := t.lost, eventSeq := t.eventSeq } := by
  obtain ⟨-, -, -, -, raised, -⟩ := abandonLanes_spec .linkLost hc hl hu
  obtain ⟨sorted, lanes, slots, clips, blocks, freed, frame⟩ := State.abandoned_spec .linkLost hc hl hu
  have lost := loseLink_eq s
  rw [freed, raised] at lost
  generalize s.abandoned .linkLost = f at *
  have units : ∀ u, f.unit u = s.unit u := State.unit_congr (by rw [frame])
  have holds : ∀ u, f.unitHolds u := fun u => by
    refine (hcap.unitHolds u).congr (units u) (fun c => ?_) fun c hfill => ?_
    · rw [clips]
      split
      · rename_i hd
        exact iff_of_false nofun fun hfill => (hcap.clip c).not_doomed (hfill ▸ rfl) hd
      · exact Iff.rfl
    · rw [clips, if_neg ((hcap.clip c).not_doomed (hfill ▸ rfl))]
      exact ⟨rfl, rfl, fun h => h.unused (hfill ▸ rfl)⟩
  obtain ⟨stopped, idle, cut, kept, told⟩ := loseUnits_spec sorted holds
  rw [told] at lost
  generalize (eachUnit loseUnit f).1 = e at *
  rw [frame] at stopped
  have assembled : e.assembly = s.assembly := by rw [stopped]
  have before : s.SameReports { e with triggers := [], cueOut := [], assembly := none } := by
    rw [stopped]
    exact ⟨rfl, rfl, rfl⟩
  have told' : ((List.finRange 2).flatMap fun u => (f.unit u).lossReport u)
      = (List.finRange 2).flatMap fun u => (s.unit u).lossReport u := by simp only [units]
  rw [assembled, told'] at lost
  have offered := before.offerEvents ([.linkLost s.frameCount] ++ s.abandonReports .linkLost
    ++ s.doomedClips.map Event.clipFreed ++ ((List.finRange 2).flatMap fun u => (s.unit u).lossReport u)
    ++ Assembly.lossReport s.assembly)
  rw [State.offerEvents_frame] at lost
  have sameLanes : e.lanes = f.lanes := by rw [stopped]
  have sameSlots : e.slots = f.slots := by rw [stopped]
  rw [lost]
  refine ⟨fun i => (State.lane_congr sameLanes i).trans (lanes i), fun j => ?_, idle, fun c => ?_, kept.trans blocks,
    offered, ?_⟩
  · exact (congrArg (·[j]) sameSlots).trans (slots j)
  · exact (cut c).trans (Clip.afterLoss_eq (hcap.clip c) (hu.2 c).1 (clips c)).symm
  · rw [stopped]

/-- What a station holds after some offers depends on no more than what its Report Queue held before them. -/
theorem State.reportsAfter.of_same {s s' t : State} {es : List Event} (h : t.reportsAfter s' es) (hs : s.SameReports s') :
    t.reportsAfter s es := by
  obtain ⟨reports, lost, seq⟩ := hs.offerEvents es
  exact ⟨h.1.trans reports, h.2.1.trans lost, h.2.2.trans seq⟩

theorem exec_frameArrival {s : State} (line : LineFrame) (hl : s.lock = .locked) :
    exec (.frameArrival line) s = .next (arriveLocked line s) := if_pos hl

/-- The station that has received its third bad frame, before its blocks apply their loss rules (R130). -/
def State.leftLocked (s : State) (line : LineFrame) : State :=
  { s with
    frameCount := s.frameCount + 1, lock := .search, confirm := 0, badRun := 0, nextBit := s.nextBit + 1
    waitingBits := 447, lineOut := line }

theorem arriveLocked_of_third_bad {s : State} {line : LineFrame} (hbad : ¬(frameOfLine line).good) (hrun : s.badRun = 2) :
    arriveLocked line s = loseLink (s.leftLocked line) := by
  have last : ¬s.badRun + 1 < 3 := by omega
  simp only [arriveLocked, if_neg hbad, if_neg last]
  rfl

/-- Settles O44: `loseLink_spec` on the station that has left LOCKED. -/
theorem thirdBadFrameLosesTheLink : Obligations.ThirdBadFrameLosesTheLink := by
  intro s line hs locked hbad hrun
  obtain ⟨lanes, slots, units, clips, blocks, reports, frame⟩ :=
    loseLink_spec (s := s.leftLocked line) hs.canonical.2.2.1 hs.lanes hs.uses hs.capture
  have ran := exec_frameArrival line locked
  rw [arriveLocked_of_third_bad hbad hrun] at ran
  generalize loseLink (s.leftLocked line) = t at *
  have receiving : s.receiving = true := (hs.receiver.2.2.2.2.2 (by rw [locked]; nofun)).2
  have search : t.lock = .search := by rw [frame]; rfl
  refine ⟨t, ran, search, ?_, ?_, ?_, ?_, ?_, ?_, ?_, ?_, ?_, ⟨lanes, slots, ?_, ?_, units, ?_⟩, clips, blocks, ?_, ?_⟩
  · rw [frame]; rfl
  · rw [frame]; rfl
  · rw [frame]; rfl
  · rw [frame]; rfl
  · rw [frame]; rfl
  · simp [State.lockIndicator, locked, receiving]
  · simp [State.lockIndicator, search]
  · rw [frame]; rfl
  · rw [frame]
  · rw [frame]
  · rw [frame]
  · rw [frame]
  · have told := State.reportsAfter.of_same reports (s := s) ⟨rfl, rfl, rfl⟩
    rw [show (s.leftLocked line).assembly = s.assembly from rfl] at told
    cases ha : s.assembly with
    | none => rw [ha] at told; exact told
    | some a => rw [ha] at told; exact told
  · rw [frame]; rfl

end Sys2Proof.Machine
end

section
/-! A trigger that falls due reaches its lane (R26, R27, R35 to R39, R114 to R116). -/

namespace Sys2Proof.Machine

/-! Lanes with nothing to do -/

/-- A row of steps of which some change nothing is the row of the others; `P` is what the others keep. -/
theorem foldl_eq_foldl_filter {α β : Type} {f : β → α → β} {P : β → Prop} {p : α → Bool}
    (keeps : ∀ w i, P w → p i = true → P (f w i)) (still : ∀ w i, P w → p i = false → f w i = w) {w : β} (hw : P w)
    (is : List α) : is.foldl f w = (is.filter p).foldl f w := by
  induction is generalizing w with
  | nil => rfl
  | cons i is ih =>
    cases hp : p i with
    | true => rw [List.filter_cons_of_pos hp, List.foldl_cons, List.foldl_cons, ih (keeps w i hw hp)]
    | false => rw [List.filter_cons_of_neg (by simp [hp]), List.foldl_cons, still w i hw hp, ih hw]

theorem filter_finRange_eq_singleton {n : Nat} (i : Fin n) : (List.finRange n).filter (· == i) = [i] := by
  refine ((List.pairwise_lt_finRange n).filter _).eq_of_mem_iff (List.pairwise_singleton _ i) fun j => ?_
  simp

theorem filter_finRange_eq_pair {n : Nat} {i j : Fin n} (h : i < j) :
    (List.finRange n).filter (fun x => x == i || x == j) = [i, j] := by
  refine ((List.pairwise_lt_finRange n).filter _).eq_of_mem_iff (List.pairwise_pair.mpr h) fun x => ?_
  simp

/-! What falls due and where it goes (R114 to R116) -/

theorem State.dueEntries_single {s : State} {e : TriggerEntry} {rest : List TriggerEntry} (hq : s.triggers = e :: rest)
    (he : e.fallsDue s.frameCount = true) (hrest : ∀ x ∈ rest, x.fallsDue s.frameCount = false) :
    s.dueEntries = [e] ∧ s.dropDue = { s with triggers := rest } := by
  have none : rest.filter (TriggerEntry.fallsDue s.frameCount) = [] :=
    List.filter_eq_nil_iff.mpr fun x hx => by simp [hrest x hx]
  have all : (rest.filter fun x => !x.fallsDue s.frameCount) = rest :=
    List.filter_eq_self.mpr fun x hx => by simp [hrest x hx]
  constructor
  · rw [State.dueEntries, hq, List.filter_cons_of_pos he, none]
  · rw [State.dropDue, hq, List.filter_cons_of_neg (by simp [he]), all]

theorem mapped_eq_some {s : State} (h : s.cueMapSound) {m : CueMapEntry} (hm : m ∈ s.cueMap) : s.mapped m.cue = some m := by
  obtain ⟨-, hnodup, -⟩ := h
  unfold State.mapped
  cases hf : s.cueMap.find? fun x => x.cue == m.cue with
  | none => exact absurd (List.find?_eq_none.mp hf m hm) (by simp)
  | some x =>
    have hx := List.mem_of_find?_eq_some hf
    have hcue : x.cue = m.cue := by simpa using List.find?_some hf
    rw [List.inj_on_of_nodup_map hnodup hx hm hcue]

/-- What an entry is, when it brings lane `i` one trigger and no unit its cue (R115, R116). -/
def State.bringsTrigger (s : State) (e : TriggerEntry) (i : Fin 8) (index : Fin 256) (policy : Policy) (cue : Fin 4096) :
    Prop :=
  e.kind = .take i index policy ∧ cue = 0
    ∨ e.kind = .cue cue ∧ (∃ m ∈ s.cueMap, m.cue = cue ∧ m.lane = i ∧ m.record = index ∧ m.policy = policy)
      ∧ ∀ u, ¬((s.unit u).state = .armed ∧ (s.unit u).cue = some cue)

theorem CaptureUnit.awaits_iff (v : CaptureUnit) (cue : Fin 4096) :
    v.awaits cue = true ↔ v.state = .armed ∧ v.cue = some cue := by
  simp [CaptureUnit.awaits]

theorem State.bringsTrigger.deliveries {s : State} {e : TriggerEntry} {i : Fin 8} {index : Fin 256} {policy : Policy}
    {cue : Fin 4096} (h : s.bringsTrigger e i index policy cue) (hm : s.cueMapSound) :
    laneDeliveries s e = [{ lane := i, record := index, policy := policy, cue := cue }] := by
  rcases h with ⟨hkind, rfl⟩ | ⟨hkind, ⟨m, hmem, rfl, rfl, rfl, rfl⟩, -⟩
  · simp only [laneDeliveries, hkind]
  · simp only [laneDeliveries, hkind, mapped_eq_some hm hmem]

theorem State.bringsTrigger.not_delivered {s : State} {e : TriggerEntry} {i : Fin 8} {index : Fin 256} {policy : Policy}
    {cue : Fin 4096} (h : s.bringsTrigger e i index policy cue) (u : Fin 2) : deliveredTo [e] (s.unit u) = false := by
  rcases h with ⟨hkind, -⟩ | ⟨hkind, -, hunits⟩
  · simp [deliveredTo, hkind]
  · have := mt (CaptureUnit.awaits_iff _ _).mp (hunits u)
    simpa [deliveredTo, hkind] using this

theorem applyTriggers_of_none {ts : List LaneTrigger} {i : Fin 8} (h : ∀ t ∈ ts, t.lane ≠ i) (w : LaneWork) :
    applyTriggers ts i w = w := by
  have none : (ts.filter fun t => t.lane == i) = [] := List.filter_eq_nil_iff.mpr fun t ht => by simpa using h t ht
  rw [applyTriggers, none, List.foldl_nil]

theorem applyTriggers_single (t : LaneTrigger) (w : LaneWork) : applyTriggers [t] t.lane w = applyTrigger t.lane w t := by
  simp [applyTriggers]

/-- Without a cue delivered no unit starts. -/
theorem eachUnit_startIf_of_none {d : Vector Bool 2} (h : ∀ u : Fin 2, d[u] = false) (s : State) :
    eachUnit (fun u => startIf d[u] u) s = (s, []) := by
  simp only [eachUnit, startIf, h]
  rfl

/-- The station at the next arrival, once the entry due has left the Trigger Queue (R114). -/
def State.dueLeft (s : State) (rest : List TriggerEntry) : State :=
  { s with frameCount := s.frameCount + 1, triggers := rest }

/-- The station at the arrival of the next frame count, as TRIGGER_FALLS_DUE looks ahead to it (log entry 5). -/
def State.countedIn (s : State) : State := { s with frameCount := s.frameCount + 1 }

/-- The lanes' work when the triggers `ts` are all that comes to them. -/
def triggersRow (ts : List LaneTrigger) (w : LaneWork) : LaneWork :=
  (List.finRange 8).foldl (fun w i => applyTriggers ts i w) w

/-- TRIGGER_FALLS_DUE with no cue for a unit among the due entries: the lanes apply their triggers, and the work of that
arrival ends. -/
theorem exec_triggerFallsDue_of_lanes {s : State} (hl : s.lock = .locked)
    (hd : ∀ u, deliveredTo s.countedIn.dueEntries (s.unit u) = false) :
    exec .triggerFallsDue s = .next
      { finishLanes [] (triggersRow (s.countedIn.dueEntries.flatMap (laneDeliveries s.countedIn))
          (LaneWork.start s.countedIn.dropDue)) with frameCount := s.frameCount } := by
  have delivered : ∀ u : Fin 2, (arrivalPlan s.countedIn s.lastGood).delivered[u] = false := by
    intro u
    simp only [arrivalPlan, Fin.getElem_fin, Vector.getElem_ofFn]
    exact hd u
  have started := eachUnit_startIf_of_none delivered s.countedIn.dropDue
  show Host.Outcome.next (whenLocked deliverDue s) = _
  rw [whenLocked_of_locked _ hl]
  simp only [State.countedIn] at started
  simp only [deliverDue, State.atNextCount, started]
  rfl

/-- TRIGGER_FALLS_DUE with one entry due, which brings lane `i` one trigger: the lane applies it, and the work of that
arrival ends. -/
theorem exec_triggerFallsDue_single {s : State} {e : TriggerEntry} {rest : List TriggerEntry} {i : Fin 8} {index : Fin 256}
    {policy : Policy} {cue : Fin 4096} (hm : s.cueMapSound) (hl : s.lock = .locked) (hq : s.triggers = e :: rest)
    (he : e.fallsDue (s.frameCount + 1) = true) (hrest : ∀ x ∈ rest, x.fallsDue (s.frameCount + 1) = false)
    (hb : s.bringsTrigger e i index policy cue) :
    exec .triggerFallsDue s = .next
      { finishLanes [] (applyTrigger i (LaneWork.start (s.dueLeft rest))
          { lane := i, record := index, policy := policy, cue := cue }) with frameCount := s.frameCount } := by
  obtain ⟨due, left⟩ := State.dueEntries_single (s := s.countedIn) hq he hrest
  have triggers : s.countedIn.dueEntries.flatMap (laneDeliveries s.countedIn)
      = [{ lane := i, record := index, policy := policy, cue := cue }] := by
    rw [due, List.flatMap_singleton]
    exact State.bringsTrigger.deliveries (s := s.countedIn) hb hm
  have lanes : ∀ w : LaneWork, triggersRow [{ lane := i, record := index, policy := policy, cue := cue }] w
        = applyTrigger i w { lane := i, record := index, policy := policy, cue := cue } := by
    intro w
    rw [triggersRow, foldl_eq_foldl_filter (P := fun _ => True) (p := (· == i)) (fun _ _ _ _ => trivial) ?_ trivial,
      filter_finRange_eq_singleton]
    · exact applyTriggers_single { lane := i, record := index, policy := policy, cue := cue } w
    · intro w j _ hj
      refine applyTriggers_of_none (fun t ht => ?_) w
      rw [List.mem_singleton.mp ht]
      rintro rfl
      simp at hj
  rw [exec_triggerFallsDue_of_lanes hl fun u => due ▸ hb.not_delivered u, triggers, lanes, left]
  rfl

/-! What a trigger does to a lane (R34 to R38) -/

theorem applyTrigger_of_idle {w : LaneWork} {i : Fin 8} (h : (w.st.lane i).phase = .idle) (t : LaneTrigger) :
    applyTrigger i w t = loadRecord i t.record w :=
  if_neg (by simpa [Lane.busy] using h)

section busy
variable {w : LaneWork} {i : Fin 8} {t : LaneTrigger} (h : (w.st.lane i).phase ≠ .idle)
include h

theorem applyTrigger_of_skip (ht : t.policy = .skip) : applyTrigger i w t = w := by
  rw [applyTrigger, if_pos ((Lane.busy_iff _).mpr h), ht]

theorem applyTrigger_of_queue (ht : t.policy = .queue) (hp : (w.st.lane i).pending = none) :
    applyTrigger i w t = w.setLane i { w.st.lane i with pending := some { record := t.record, kind := .queued } } := by
  rw [applyTrigger, if_pos ((Lane.busy_iff _).mpr h), ht]
  simp only [queueTrigger, hp]

theorem applyTrigger_of_queue_full (ht : t.policy = .queue) (hp : (w.st.lane i).pending ≠ none) :
    applyTrigger i w t = w.report [.missedCue t.cue (some i)] := by
  rw [applyTrigger, if_pos ((Lane.busy_iff _).mpr h), ht]
  obtain ⟨p, hp⟩ := Option.ne_none_iff_exists'.mp hp
  simp only [queueTrigger, hp]

theorem applyTrigger_of_cut (ht : t.policy = .cut) : applyTrigger i w t = cutTrigger i t w := by
  rw [applyTrigger, if_pos ((Lane.busy_iff _).mpr h), ht]

end busy

/-- The context of a lane that runs `r` once a CUT trigger for `index` has met it (R37). -/
def Lane.afterCut (r : Record) (index : Fin 256) (l : Lane) : Lane :=
  { l with
    pending := some { record := index, kind := .cut }
    mark := .cut
    total := if l.mark = .unmarked then recomputedTotal r l.total l.k else l.total }

/-- The cut context of a record with a fall still to run, or already marked (R37, R57). -/
theorem Lane.afterCut_of_falls {r : Record} {l : Lane} (h : l.mark ≠ .unmarked ∨ r.voices ≠ [] ∧ r.rOut.val ≠ 0)
    (index : Fin 256) : l.afterCut r index = { l with
      pending := some { record := index, kind := .cut }
      mark := .cut
      total := if l.mark = .unmarked then min l.total (l.k + fadeIndex r l.total l.k * r.rOut.val + 1) else l.total } := by
  unfold Lane.afterCut
  by_cases hm : l.mark = .unmarked
  · obtain ⟨hv, hout⟩ := h.resolve_left (not_not.mpr hm)
    rw [if_pos hm, if_pos hm, recomputedTotal_of_falls hv hout]
  · rw [if_neg hm, if_neg hm]

/-- A CUT trigger meets a lane: the superseded report and the cut context, and the end if no frame is left (R37, R38). -/
theorem cutTrigger_of_copy {i : Fin 8} {t : LaneTrigger} {w : LaneWork} {r : Record} (hr : (w.st.lane i).copy = some r) :
    cutTrigger i t w =
      let cut := (w.report (supersededReport i (w.st.lane i))).setLane i ((w.st.lane i).afterCut r t.record)
      if (w.st.lane i).mark = .unmarked ∧ recomputedTotal r (w.st.lane i).total (w.st.lane i).k = (w.st.lane i).k then
        endRecord i cut
      else cut := by
  by_cases hm : (w.st.lane i).mark = .unmarked <;> simp [cutTrigger, Lane.afterCut, hr, hm]

/-! The work of a due trigger ends -/

/-- The count is none of what an offer reads. -/
theorem State.offerEvents_at (s : State) (now : FrameCount) (es : List Event) :
    ({ s with frameCount := now } : State).offerEvents es = { s.offerEvents es with frameCount := now } := by
  have same : s.SameReports { s with frameCount := now } := ⟨rfl, rfl, rfl⟩
  obtain ⟨reports, lost, seq⟩ := same.offerEvents es
  rw [State.offerEvents_frame, State.offerEvents_frame s, reports, lost, seq]

/-- Lanes' work at another count that frees nothing and hands on no end cue leaves its state with its reports. -/
theorem finishLanes_at {w : LaneWork} {u : State} {now : FrameCount} (hw : w.st = { u with frameCount := now })
    (hd : u.doomedUnused = []) (hc : w.endCues = []) :
    { finishLanes [] w with frameCount := u.frameCount } = u.offerEvents w.reports := by
  rw [finishLanes_of_nothing_freed (hw ▸ hd) hc, hw, List.append_nil, State.offerEvents_at]
  exact State.with_frameCount_self (State.offerEvents_frameCount ..)

/-- A load adds uses to READY clips, so that it leaves no DOOMED clip without uses. -/
theorem commitLoad_doomedUnused {w : LaneWork} (hc : sparseSorted w.st.clips = true) (hd : w.st.doomedUnused = [])
    (i : Fin 8) (index : Fin 256) (r : Record) : (commitLoad i index r w).st.doomedUnused = [] := by
  obtain ⟨sorted, -, -, clip, -⟩ := commitLoad_spec hc i index r
  refine List.eq_nil_iff_forall_not_mem.mpr fun c hmem => ?_
  rw [State.mem_doomedUnused sorted, clip] at hmem
  have : c ∈ w.st.doomedUnused := (State.mem_doomedUnused hc c).mpr ⟨hmem.1, (Nat.add_eq_zero_iff.mp hmem.2).1⟩
  rw [hd] at this
  cases this

/-- A station stays sound when entries leave its Trigger Queue. -/
theorem State.Sound.with_triggers {s : State} (hs : s.Sound) {q : List TriggerEntry} (hq : q.Sublist s.triggers) :
    State.Sound { s with triggers := q } := by
  obtain ⟨hc, hrep, ⟨htrig, hout⟩, ⟨hlen, hpair, hdue, hquiet⟩, hmap, hlaw, htab, hlanes, hrec, hqt, hcap, hblk, huse⟩ := hs
  have none : s.triggers = [] → q = [] := fun h => List.sublist_nil.mp (h ▸ hq)
  refine ⟨hc, hrep, ⟨hq.length_le.trans htrig, hout⟩, ⟨hq.length_le.trans hlen, hpair.sublist hq,
    fun e he => hdue e (hq.subset he), fun h => none (hquiet h)⟩, hmap, hlaw, htab, hlanes, hrec, fun h => ?_, hcap, hblk, huse⟩
  obtain ⟨l, j, t, o, u, a⟩ := hqt h
  exact ⟨l, j, none t, o, u, a⟩

/-- An end does not read the Trigger Queue, and says nothing of it. -/
theorem State.spliceOver.of_triggers {s t : State} {q : List TriggerEntry} {i : Fin 8} {r : Record} {lane trigger : List Event}
    (h : State.spliceOver { s with triggers := q } t i r lane trigger) : s.spliceOver t i r lane trigger := by
  obtain ⟨lanes, slots, clips, blocks, reports, frame⟩ := h
  exact ⟨lanes, slots, clips, blocks, State.reportsAfter.of_same reports ⟨rfl, rfl, rfl⟩, frame⟩

theorem State.spliceFollowed.of_triggers {s t : State} {q : List TriggerEntry} {i : Fin 8} {r : Record} {index : Fin 256}
    {next : Record} {lane trigger : List Event}
    (h : State.spliceFollowed { s with triggers := q } t i r index next lane trigger) :
    s.spliceFollowed t i r index next lane trigger := by
  obtain ⟨lanes, slots, clips, blocks, reports, frame⟩ := h
  exact ⟨lanes, slots, clips, blocks, State.reportsAfter.of_same reports ⟨rfl, rfl, rfl⟩, frame⟩

/-! TRIGGER_FALLS_DUE with one entry due (R35 to R38) -/

section row
variable {s : State} {rest : List TriggerEntry} {i : Fin 8} {index : Fin 256}

/-- What a lane's work on the due trigger leaves, when it frees no clip and hands on no end cue. -/
theorem State.Sound.dueLeft_finish (hs : s.Sound) {w : LaneWork} {u : State}
    (hw : w.st = { u with frameCount := s.frameCount + 1 }) (hf : u.frameCount = s.frameCount) (hu : u.clips = s.clips)
    (hc : w.endCues = []) : { finishLanes [] w with frameCount := s.frameCount } = u.offerEvents w.reports :=
  hf ▸ finishLanes_at hw (hs.doomedUnused hu) hc

/-- An IDLE lane loads the record that the trigger names (R26, R35). -/
theorem dueLeft_commitLoad (hs : s.Sound) {r : Record} :
    let t : State := { finishLanes [] (commitLoad i index r (LaneWork.start (s.dueLeft rest))) with frameCount := s.frameCount }
    (∀ j, t.lane j = if j = i then Lane.loaded index r (effectiveLength s r) else s.lane j)
      ∧ (∀ j : Fin 16, t.slots[j] = if ∃ v ∈ r.voices, v.slot = j then some i else s.slots[j])
      ∧ (∀ c, t.clip c = { s.clip c with uses := (s.clip c).uses + r.voices.countP fun v => v.clip.val == c })
      ∧ t.reportsAfter s (if r.reportStart then [.spliceStarted i index r.tag] else [])
      ∧ t = { s with
          triggers := rest, lanes := t.lanes, slots := t.slots, clips := t.clips, reports := t.reports, lost := t.lost
          eventSeq := t.eventSeq } := by
  have sorted : sparseSorted (LaneWork.start (s.dueLeft rest)).st.clips = true := hs.canonical.2.2.1
  obtain ⟨-, lane, slots, clip, reports, cues⟩ := commitLoad_spec sorted i index r
  have nothing := commitLoad_doomedUnused sorted (hs.doomedUnused rfl) i index r
  have frame := (LaneWork.follows_commitLoad i index r (LaneWork.start (s.dueLeft rest))).1
  generalize commitLoad i index r (LaneWork.start (s.dueLeft rest)) = w at *
  have before : s.SameReports w.st := by rw [frame]; exact ⟨rfl, rfl, rfl⟩
  have offered := before.offerEvents w.reports
  have ended : finishLanes [] w = w.st.offerEvents w.reports := by
    rw [finishLanes_of_nothing_freed nothing cues, List.append_nil]
  rw [State.offerEvents_frame] at ended
  rw [ended]
  refine ⟨lane, fun j => (slots j).trans ?_, clip, ?_, ?_⟩
  · simp only [Record.mem_slotSet]
    rfl
  · rw [show w.reports = _ from reports] at offered ⊢
    exact offered
  · rw [frame]
    rfl

/-- The cut context, its claims not yet given back, is lane `i` advanced at the next count. -/
theorem laneAdvanced_afterCut (r : Record) :
    State.LaneAdvanced { s with triggers := rest } ((s.dueLeft rest).setLane i ((s.lane i).afterCut r index)) i
      (s.frameCount + 1) :=
  ⟨rfl, fun _ hj => (State.lane_setLane ..).trans (if_neg hj), by rw [State.lane_setLane, if_pos rfl]; rfl⟩

/-- The lane's work when a CUT trigger leaves its record no frame, up to the end of the record (R38). -/
def State.cutWork (s : State) (rest : List TriggerEntry) (i : Fin 8) (r : Record) (index : Fin 256) : LaneWork :=
  ((LaneWork.start (s.dueLeft rest)).report (supersededReport i (s.lane i))).setLane i ((s.lane i).afterCut r index)

theorem State.cutWork_lane (r : Record) : (s.cutWork rest i r index).st.lane i = (s.lane i).afterCut r index :=
  (State.lane_setLane ..).trans (if_pos rfl)

theorem State.cutWork_ended_reports (r : Record) :
    ((s.cutWork rest i r index).ended i r).reports = supersededReport i (s.lane i) ++ endReport i (s.lane i) r .cut := by
  simp only [LaneWork.ended, State.cutWork_lane]
  rfl

theorem State.cutWork_ended_endCues (r : Record) : ((s.cutWork rest i r index).ended i r).endCues = [] := by
  simp only [LaneWork.ended, State.cutWork_lane]
  rfl

theorem endRecord_cutWork {r : Record} (hr : (s.lane i).copy = some r) :
    endRecord i (s.cutWork rest i r index) = loadRecord i index ((s.cutWork rest i r index).ended i r) := by
  apply endRecord_of_follows <;> rw [State.cutWork_lane]
  · exact hr
  · exact .inl rfl

variable (hs : s.Sound) (hq : rest.Sublist s.triggers) {r : Record} (hr : (s.lane i).copy = some r)
include hs hq hr

/-- The record that a CUT ends at once, when the load of the next one fails (R27, R38). -/
theorem cutWork_over {why : ChainReason} (hl : loadTest s i index = .error why) :
    let t : State := { finishLanes [] (endRecord i (s.cutWork rest i r index)) with frameCount := s.frameCount }
    t.triggers = rest ∧ t.cueOut = s.cueOut
      ∧ s.spliceOver t i r (supersededReport i (s.lane i) ++ endReport i (s.lane i) r .cut ++ [.chainEnded i index why]) [] := by
  have returned := (laneAdvanced_afterCut (s := s) (rest := rest) (i := i) (index := index) r).releaseClaims hs.canonical
    hs.lanes r
  have sound := hs.with_triggers hq
  have load := loadRecord_of_error (w := (s.cutWork rest i r index).ended i r) ((returned.loadTest_eq index).trans hl)
  obtain ⟨missed, dropped, handled, spliced⟩ := State.ClaimsReturned.spliceOver
    (w := ((s.cutWork rest i r index).ended i r).report [.chainEnded i index why]) returned sound hr
    ((congrArg List.length (State.cutWork_ended_endCues r)).trans_le (Nat.zero_le 1))
  obtain ⟨triggers, cueOut, rfl, rfl⟩ := handled.1 (State.cutWork_ended_endCues r)
  rw [endRecord_cutWork hr, load]
  exact ⟨triggers, cueOut, State.cutWork_ended_reports (s := s) (rest := rest) r ▸ spliced.of_triggers⟩

/-- The record that a CUT ends at once, when the next one loads (R26, R38). -/
theorem cutWork_followed {next : Record} (hl : loadTest s i index = .ok next) :
    let t : State := { finishLanes [] (endRecord i (s.cutWork rest i r index)) with frameCount := s.frameCount }
    t.triggers = rest ∧ t.cueOut = s.cueOut
      ∧ s.spliceFollowed t i r index next (supersededReport i (s.lane i) ++ endReport i (s.lane i) r .cut
          ++ if next.reportStart then [.spliceStarted i index next.tag] else []) [] := by
  have returned := (laneAdvanced_afterCut (s := s) (rest := rest) (i := i) (index := index) r).releaseClaims hs.canonical
    hs.lanes r
  have sound := hs.with_triggers hq
  have load := loadRecord_of_ok (w := (s.cutWork rest i r index).ended i r) ((returned.loadTest_eq index).trans hl)
  obtain ⟨missed, dropped, handled, spliced⟩ := State.ClaimsReturned.spliceFollowed
    (w := (s.cutWork rest i r index).ended i r) returned sound hr
    ((congrArg List.length (State.cutWork_ended_endCues r)).trans_le (Nat.zero_le 1)) hl
  obtain ⟨triggers, cueOut, rfl, rfl⟩ := handled.1 (State.cutWork_ended_endCues r)
  rw [endRecord_cutWork hr, load]
  exact ⟨triggers, cueOut, State.cutWork_ended_reports (s := s) (rest := rest) r ▸ spliced.of_triggers⟩

end row

end Sys2Proof.Machine
end

section
/-! The Control Slot Router and the arbiter at an arrival, in the numbers of the statements (Table 7-2, R102, R120, R191, R193). -/

namespace Sys2Proof.Machine

/-! The fields of a control word as numbers (Table 7-4) -/

theorem toNat_extract_kind (w : ControlWord) : (w.extractLsb' 29 3).toNat = w.toNat / 536870912 := by
  have := w.isLt
  rw [BitVec.extractLsb'_toNat, Nat.shiftRight_eq_div_pow]
  omega

theorem toNat_wordStation (w : ControlWord) : (wordStation w).toNat = w.toNat / 16777216 % 32 := by
  rw [wordStation, BitVec.extractLsb'_toNat, Nat.shiftRight_eq_div_pow]

theorem val_cueNumber (w : ControlWord) : (cueNumber (wordPayload w)).val = w.toNat / 4096 % 4096 := by
  show ((w.extractLsb' 0 24).extractLsb' 12 12).toNat = _
  rw [BitVec.extractLsb'_toNat, BitVec.extractLsb'_toNat, Nat.shiftRight_eq_div_pow, Nat.shiftRight_eq_div_pow]
  omega

theorem wordStation_eq_iff (w : ControlWord) (station : BitVec 5) :
    wordStation w = station ↔ w.toNat / 16777216 % 32 = station.toNat := by
  rw [← toNat_wordStation, BitVec.toNat_inj]

/-- The kind of a word is the one whose number stands in its top three bits (Table 7-5). -/
theorem wordKind_cases (w : ControlWord) :
    (w.toNat / 536870912 = 0 ∧ wordKind w = .idle) ∨ (w.toNat / 536870912 = 1 ∧ wordKind w = .cue)
      ∨ (2 ≤ w.toNat / 536870912 ∧ w.toNat / 536870912 ≤ 4
        ∧ (wordKind w = .orderHead ∨ wordKind w = .orderBody ∨ wordKind w = .orderEnd))
      ∨ (5 ≤ w.toNat / 536870912 ∧ (wordKind w = .reportHead ∨ wordKind w = .reportBody ∨ wordKind w = .reportEnd)) := by
  have hlt : w.toNat / 536870912 < 8 := by have := w.isLt; omega
  unfold wordKind WordKind.ofCode
  rw [toNat_extract_kind]
  generalize w.toNat / 536870912 = n at *
  interval_cases n <;> simp

/-- The router passes a word on just as the numbers of its fields say (Table 7-2). -/
theorem passesOn_eq_travelsOn (station : BitVec 5) (w : ControlWord) : passesOn station w = travelsOn station w := by
  have field := wordStation_eq_iff w station
  rw [Bool.eq_iff_iff]
  simp only [passesOn, travelsOn, decide_eq_true_eq]
  rcases wordKind_cases w with ⟨hn, hk⟩ | ⟨hn, hk⟩ | ⟨hn, hn', hk | hk | hk⟩ | ⟨hn, hk | hk | hk⟩ <;> rw [hk]
  · simp [hn]
  · simp [hn, val_cueNumber, field]
  all_goals simp [field]; omega

/-- The router hands the Order Unit the words that the numbers of their fields say (R137, R138). -/
theorem handedOrderWord_eq (station : BitVec 5) (w : ControlWord) :
    handedOrderWord station w = if forOrderUnit station w then some w else none := by
  have field := wordStation_eq_iff w station
  have all : wordStation w = 31#5 ↔ w.toNat / 16777216 % 32 = 31 := wordStation_eq_iff w 31
  simp only [handedOrderWord, forOrderUnit, decide_eq_true_eq]
  rcases wordKind_cases w with ⟨hn, hk⟩ | ⟨hn, hk⟩ | ⟨hn, hn', hk | hk | hk⟩ | ⟨hn, hk | hk | hk⟩ <;> rw [hk]
  · simp [hn]
  · simp [hn]
  · simp [field, all, hn, hn']
  · simp [field, all, hn, hn']
  · simp [field, all, hn, hn']
  all_goals simp [show ¬w.toNat / 536870912 ≤ 4 by omega]

/-- The cue of a word that is acted on, as the numbers of its fields say (R102). -/
theorem actedCue_eq (station : BitVec 5) (w : ControlWord) :
    actedCue station w
      = if actsOnCue station w then [(cueNumber (wordPayload w), cueOffset (wordPayload w))] else [] := by
  have field := wordStation_eq_iff w station
  have zero : wordStation w = 0#5 ↔ w.toNat / 16777216 % 32 = 0 := wordStation_eq_iff w 0
  simp only [actedCue, actsOnCue, decide_eq_true_eq]
  rcases wordKind_cases w with ⟨hn, hk⟩ | ⟨hn, hk⟩ | ⟨hn, hn', hk | hk | hk⟩ | ⟨hn, hk | hk | hk⟩ <;> rw [hk]
  · simp [hn]
  · simp [hn, val_cueNumber, field, zero]
  all_goals simp [show w.toNat / 536870912 ≠ 1 by omega]

/-! What a free slot gets (R120, R191) -/

theorem cuePayload_eq (cue offset : Fin 4096) : cuePayload cue offset = BitVec.ofNat 24 (4096 * cue.val + offset.val) := by
  have := cue.isLt
  have := offset.isLt
  apply BitVec.eq_of_toNat_eq
  rw [cuePayload, BitVec.toNat_append, BitVec.toNat_ofNat]
  show cue.val <<< 12 ||| offset.val = _
  rw [← Nat.shiftLeft_add_eq_or_of_lt (show offset.val < 2 ^ 12 by omega), Nat.shiftLeft_eq]
  omega

/-- The word of a Cue Out entry carries the frames to go when they lie in 1 to 4095, else 0 (R120). -/
theorem CueOutEntry.word_eq (e : CueOutEntry) (now : FrameCount) :
    e.word now = controlWord .cue 0 (BitVec.ofNat 24 (4096 * e.cue.val
      + if 1 ≤ (e.due - now).toNat ∧ (e.due - now).toNat ≤ 4095 then (e.due - now).toNat else 0)) := by
  have offset : (e.offsetAt now).val
      = if 1 ≤ (e.due - now).toNat ∧ (e.due - now).toNat ≤ 4095 then (e.due - now).toNat else 0 := by
    unfold CueOutEntry.offsetAt
    by_cases h : (e.due - now).toNat < 4096
    · rw [dif_pos h]
      dsimp only
      split <;> omega
    · rw [dif_neg h, if_neg (by omega)]
      rfl
  rw [CueOutEntry.word, cuePayload_eq, offset]

theorem Report.words_getElem? {station : BitVec 5} {r : Report} {position : Nat} (h : position ≤ r.body.length + 1) :
    (r.words station)[position]? = some (r.wordAt station position) := by
  unfold Report.words Report.wordAt Report.headWord
  cases position with
  | zero => rfl
  | succ n =>
    rw [List.getElem?_cons_succ, if_neg (Nat.succ_ne_zero n), Nat.add_sub_cancel]
    by_cases hb : n < r.body.length
    · rw [List.getElem?_append_left (by simpa using hb), if_pos (Nat.succ_le_of_lt hb), List.getElem?_map, List.getD_eq_getElem?_getD,
        List.getElem?_eq_getElem hb]
      rfl
    · have last : n = r.body.length := by omega
      rw [List.getElem?_append_right (by simp [last]), if_neg (by omega), last]
      simp

/-- A choice of the arbiter sends the word of `out`; either it ends no report and emits what `out` says, or it sends the
last word of the head report, and `out` has that report gone (R120, R191, R193). -/
def State.ChoiceAgrees (s : State) (c : SlotChoice) (out : ControlWord × List CueOutEntry × List Report × Nat) : Prop :=
  c.word s.frameCount = out.1
    ∧ ((c.endsReport s = false ∧ out.2.2.1 = s.reports
        ∧ ∀ t : State, t.cueOut = s.cueOut → t.wordPos = s.wordPos →
            c.emit t = { t with cueOut := out.2.1, wordPos := out.2.2.2 })
      ∨ (c.endsReport s = true ∧ s.reports ≠ [] ∧ out.2.2.1 = s.reports.tail ∧ out.2.2.2 = 0
        ∧ ∀ t : State, t.cueOut = s.cueOut → t.wordPos = s.wordPos →
            c.emit t = { t with cueOut := out.2.1, wordPos := s.wordPos + 1 }))

theorem State.choiceAgrees_of_silent {s : State} {c : SlotChoice} {w : ControlWord} (hw : c.word s.frameCount = w)
    (he : c.endsReport s = false) (hc : ∀ t, c.emit t = t) : s.ChoiceAgrees c (w, s.cueOut, s.reports, s.wordPos) := by
  refine ⟨hw, .inl ⟨he, rfl, fun t hout hpos => ?_⟩⟩
  rw [hc, ← hout, ← hpos]

/-- What the Cue Out list and the Report Queue get a free slot for (R193). -/
theorem freeSlotChoice_agrees {s : State} (h : s.reportsBounded) :
    s.ChoiceAgrees (freeSlotChoice s) (s.slotOutcome s.frameCount none) := by
  obtain ⟨-, -, -, hpos⟩ := h
  unfold freeSlotChoice State.slotOutcome
  cases hc : s.cueOut with
  | cons e rest =>
    refine ⟨e.word_eq s.frameCount, .inl ⟨rfl, rfl, fun t hout htp => ?_⟩⟩
    rw [hc] at hout
    simp only [SlotChoice.emit, hout, ← htp, List.tail_cons]
  | nil =>
    cases hr : s.reports with
    | nil =>
      have offered : s.offeredReportWord = none := by simp only [State.offeredReportWord, hr]
      simp only [offered]
      have idle := State.choiceAgrees_of_silent (s := s) (c := .idle) (w := 0) rfl rfl fun _ => rfl
      rwa [hc, hr] at idle
    | cons r rest =>
      rw [hr] at hpos
      have offered : s.offeredReportWord = some (r.wordAt s.station s.wordPos) := by
        simp only [State.offeredReportWord, hr, Report.words_getElem? hpos]
      simp only [offered]
      have ends : s.offersLastWord = (s.wordPos == r.body.length + 1) := by simp only [State.offersLastWord, hr]
      by_cases hlast : s.wordPos = r.body.length + 1
      · rw [if_pos hlast]
        refine ⟨rfl, .inr ⟨?_, by rw [hr]; nofun, by rw [hr]; rfl, rfl, fun t hout htp => ?_⟩⟩
        · rw [SlotChoice.endsReport, ends, beq_iff_eq]
          exact hlast
        · rw [hc] at hout
          simp only [SlotChoice.emit, ← hout, ← htp]
      · rw [if_neg hlast]
        refine ⟨rfl, .inl ⟨?_, hr.symm, fun t hout htp => ?_⟩⟩
        · rw [SlotChoice.endsReport, ends, beq_eq_false_iff_ne]
          exact hlast
        · rw [hc] at hout
          simp only [SlotChoice.emit, ← hout, ← htp]

/-- The arbiter at the start of an arrival (R193) does as `State.slotOutcome` says. -/
theorem arbitrate_agrees {s : State} (h : s.reportsBounded) (word : Option ControlWord) :
    s.ChoiceAgrees (arbitrate s word) (s.slotOutcome s.frameCount word) := by
  cases word with
  | none => exact freeSlotChoice_agrees h
  | some w =>
    by_cases hw : travelsOn s.station w = true
    · have choice : arbitrate s (some w) = .pass w := by simp [arbitrate, passesOn_eq_travelsOn, hw]
      have out : s.slotOutcome s.frameCount (some w) = (w, s.cueOut, s.reports, s.wordPos) := by
        simp [State.slotOutcome, hw]
      rw [choice, out]
      exact State.choiceAgrees_of_silent rfl rfl fun _ => rfl
    · have choice : arbitrate s (some w) = freeSlotChoice s := by simp [arbitrate, passesOn_eq_travelsOn, hw]
      have out : s.slotOutcome s.frameCount (some w) = s.slotOutcome s.frameCount none := by
        simp [State.slotOutcome, hw]
      rw [choice, out]
      exact freeSlotChoice_agrees h

end Sys2Proof.Machine
end

section
/-! An arrival at which no capture unit works, no order word comes and no deadline is met: the lanes' work, the Trigger Unit
and the outgoing frame (R23, R113, R134 to R136, R187, R193). -/

namespace Sys2Proof.Machine

/-! The frame work without the capture units -/

section units
variable {p : ArrivalPlan} {s0 : State} (h : ∀ u, unitActive p s0 u = false)
include h

theorem unitsAt_of_idle (turn : Fin 10) (w : ArrivalWork) : unitsAt p s0 turn w = w := by
  simp [unitsAt, unitAt, h]

theorem lanesWork_of_idle : lanesWork p s0
    = { lanes := (List.finRange 8).foldl (fun w i => laneSteps p.triggers i w) (LaneWork.start s0)
        unitEvents := Vector.replicate 2 [] } := by
  have row : ∀ (is : List (Fin 8)) (w : ArrivalWork), is.foldl (laneAt p s0) w
      = { w with lanes := is.foldl (fun w i => laneSteps p.triggers i w) w.lanes } := by
    intro is
    induction is with
    | nil => exact fun _ => rfl
    | cons i is ih =>
      intro w
      rw [List.foldl_cons, ih, laneAt, unitsAt_of_idle h]
      rfl
  rw [lanesWork, unitsAt_of_idle h, row]

end units

/-- The lanes' work of an arrival at which the triggers `ts` are delivered (R22, R23). -/
def lanesRow (ts : List LaneTrigger) (s : State) : LaneWork :=
  (List.finRange 8).foldl (fun w i => laneSteps ts i w) (LaneWork.start s)

/-- No unit has frame work at the arrival that `s` has received: none is RECORDING, and no due entry brings a cue to one. -/
def State.unitsRest (s : State) : Prop :=
  ∀ u : Fin 2, (s.unit u).state ≠ .recording ∧ deliveredTo s.dueEntries (s.unit u) = false

theorem State.unitsRest.delivered {s : State} (h : s.unitsRest) (programme : SampleSet) (u : Fin 2) :
    (arrivalPlan s programme).delivered[u] = false := by
  simp only [arrivalPlan, Fin.getElem_fin, Vector.getElem_ofFn]
  exact (h u).2

theorem State.unitsRest.inactive {s t : State} (h : s.unitsRest) (programme : SampleSet) (ht : t.units = s.units)
    (u : Fin 2) : unitActive (arrivalPlan s programme) t u = false := by
  rw [unitActive, h.delivered, State.unit_congr ht]
  simpa using (h u).1

/-- A unit awaits a cue at an admission just when it does so after the lanes' work, if no cue was delivered (R111). -/
theorem awaitedAt_of_rest {s : State} (h : s.unitsRest) (programme : SampleSet) (s0 t : State) :
    awaitedAt (arrivalPlan s programme) s0 t = fun _ => t.awaited := by
  funext j cue
  simp only [awaitedAt, h.delivered, State.awaited]
  simp [List.finRange_succ]

theorem orderUnitWork_of_nothing {s : State} (h : ∀ a, s.assembly = some a → s.frameCount ≠ a.start + 2048) :
    orderUnitWork none s = { st := s, events := [], complete := none } := by
  have deadline : checkDeadline s = (s, []) := by
    unfold checkDeadline
    split
    · rfl
    · rename_i a ha; exact if_neg (h a ha)
  simp only [orderUnitWork, deadline, handleOrderWord, List.append_nil]

/-- The cue of an arrival's control word, if it is acted on (R102). -/
def State.actedCues (s : State) (word : Option ControlWord) : List (Fin 4096 × Fin 4096) :=
  match word with
  | none => []
  | some w => actedCue s.station w

theorem SlotChoice.emit_frame (c : SlotChoice) (t : State) :
    c.emit t = { t with cueOut := (c.emit t).cueOut, wordPos := (c.emit t).wordPos } := by
  cases c <;> rfl

theorem lanesRow_follows (ts : List LaneTrigger) (s : State) : (LaneWork.start s).Follows (lanesRow ts s) :=
  List.foldlRecOn (List.finRange 8) (fun w i => laneSteps ts i w) (b := LaneWork.start s)
    (motive := fun w => (LaneWork.start s).Follows w) (LaneWork.Follows.refl _)
    fun _ hw i _ => hw.trans (LaneWork.follows_laneSteps ts i _)

/-- An arrival's lane work and returns, the phases set, reach nothing but the lanes, the Slot Table and the Clip Store. -/
theorem setPhases_lanesRow_frame (ts : List LaneTrigger) (s : State) : setPhases (lanesRow ts s).st.freeDoomed.1
    = { s with
        lanes := (setPhases (lanesRow ts s).st.freeDoomed.1).lanes, slots := (lanesRow ts s).st.slots
        clips := (lanesRow ts s).st.freeDoomed.1.clips, freeBlocks := (lanesRow ts s).st.freeDoomed.1.freeBlocks } := by
  have follows : (lanesRow ts s).st = { s with lanes := _, slots := _, clips := _ } := (lanesRow_follows ts s).1
  have freed := State.freeDoomed_frame (lanesRow ts s).st
  simp only [setPhases]
  rw [freed, follows]

theorem returnsWork_of_rest {s s0 : State} (h : s.unitsRest) (programme : SampleSet) (hu : s0.units = s.units) :
    let lanes := lanesRow (s.dueEntries.flatMap (laneDeliveries s)) s0
    returnsWork (arrivalPlan s programme) s0
      = ({ lanes := { lanes with st := lanes.st.freeDoomed.1 }, unitEvents := Vector.replicate 2 [] }, lanes.st.freeDoomed.2) := by
  have inactive := h.inactive programme hu
  simp only [returnsWork, lanesWork_of_idle inactive, unitsAt_of_idle inactive]
  rfl

/-- The station after the arbiter's choice, the due entries gone from the Trigger Queue (R114, R193). -/
def State.emitted (s : State) (word : Option ControlWord) : State := (arbitrate s word).emit s.dropDue

theorem State.emitted_frame (s : State) (word : Option ControlWord) : s.emitted word
    = { s.dropDue with cueOut := (s.emitted word).cueOut, wordPos := (s.emitted word).wordPos } :=
  (arbitrate s word).emit_frame s.dropDue

/-- The lanes' work of the arrival that `s` has received with the control word `word`. -/
def State.arrivalLanes (s : State) (word : Option ControlWord) : LaneWork :=
  lanesRow (s.dueEntries.flatMap (laneDeliveries s)) (s.emitted word)

/-- The station whose lanes and slots the arrival's samples are mixed from. -/
def State.arrivalMixed (s : State) (word : Option ControlWord) : State :=
  setPhases (s.arrivalLanes word).st.freeDoomed.1

/-- The Trigger Unit's part of the arrival (R113, R118). -/
def State.arrivalAdmitted (s : State) (word : Option ControlWord) : State × List Event :=
  admitAll (fun _ => (s.arrivalMixed word).awaited) (s.arrivalLanes word).endCues (s.actedCues word) (s.arrivalMixed word)

theorem State.arrivalMixed_frame (s : State) (word : Option ControlWord) : s.arrivalMixed word
    = { s.emitted word with
        lanes := (s.arrivalMixed word).lanes, slots := (s.arrivalLanes word).st.slots
        clips := (s.arrivalLanes word).st.freeDoomed.1.clips
        freeBlocks := (s.arrivalLanes word).st.freeDoomed.1.freeBlocks } :=
  setPhases_lanesRow_frame _ (s.emitted word)

theorem State.arrivalAdmitted_frame (s : State) (word : Option ControlWord) : (s.arrivalAdmitted word).1
    = { s.arrivalMixed word with
        triggers := (s.arrivalAdmitted word).1.triggers, cueOut := (s.arrivalAdmitted word).1.cueOut } :=
  admitAll_frame ..

theorem State.emitted_units (s : State) (word : Option ControlWord) : (s.emitted word).units = s.units := by
  rw [State.emitted_frame]
  rfl

theorem frameWork_of_rest {s : State} {programme : SampleSet} {word : Option ControlWord} (h : s.unitsRest)
    (ha : ∀ a, s.assembly = some a → s.frameCount ≠ a.start + 2048)
    (hw : ∀ w, word = some w → ¬forOrderUnit s.station w) :
    frameWork programme word s = ({ offerAndDepart s.choices ((arbitrate s word).endsReport s)
        ((s.arrivalLanes word).reports ++ (s.arrivalLanes word).st.freeDoomed.2 ++ (s.arrivalAdmitted word).2)
        (s.arrivalAdmitted word).1 with
      lineOut := composeFrame (mixFrame (s.arrivalMixed word) programme) ((arbitrate s word).word s.frameCount)
      choices := s.choices + 1 }, none) := by
  have handed : word.bind (handedOrderWord s.station) = none := by
    cases word with
    | none => rfl
    | some w => exact (handedOrderWord_eq s.station w).trans (if_neg (hw w rfl))
  have orders : orderUnitWork none (s.arrivalAdmitted word).1
      = { st := (s.arrivalAdmitted word).1, events := [], complete := none } := by
    refine orderUnitWork_of_nothing fun a hassembly => ?_
    rw [State.arrivalAdmitted_frame, State.arrivalMixed_frame, State.emitted_frame] at hassembly ⊢
    exact ha a hassembly
  have returns := returnsWork_of_rest h programme (s.emitted_units word)
  have awaited := awaitedAt_of_rest h programme (s.emitted word)
  cases word <;>
  · simp only [State.arrivalAdmitted, State.arrivalMixed, State.arrivalLanes, State.actedCues, State.emitted]
      at returns awaited orders ⊢
    simp only [frameWork, returns, awaited, handed, orders, Vector.getElem_replicate, List.append_nil]
    rfl

end Sys2Proof.Machine
end

section
/-! The Trigger Unit at an arrival: the end cues of the lanes and then the cue word (R111, R113, R118). -/

namespace Sys2Proof.Machine

theorem offerCues_append (awaited : Nat → Fin 4096 → Bool) (first rest : List (Fin 4096 × Fin 4096)) (j : Nat) (s : State) :
    offerCues awaited j (first ++ rest) s =
      let a := offerCues awaited j first s
      let b := offerCues awaited (j + first.length) rest a.1
      (b.1, a.2 ++ b.2) := by
  induction first generalizing j s with
  | nil => rfl
  | cons c first ih =>
    have count : j + 1 + first.length = j + (c :: first).length := by rw [List.length_cons]; omega
    simp only [List.cons_append, offerCues, ih, count, List.append_assoc]

theorem offerCues_triggers_length {s : State} (h : s.triggers.length ≤ 16) (awaited : Nat → Fin 4096 → Bool)
    (cues : List (Fin 4096 × Fin 4096)) (j : Nat) : (offerCues awaited j cues s).1.triggers.length ≤ 16 := by
  refine offerCues_induction (P := fun t => t.triggers.length ≤ 16) (fun t cue offset hroom _ => ?_) awaited cues j s h
  exact (insertTrigger_length ..).trans_le hroom

/-- Forwarding does not read the Trigger Queue. -/
theorem placeCues_with_triggers (cues : List EndCue) (s : State) (q : List TriggerEntry) :
    placeCues cues { s with triggers := q }
      = ({ (placeCues cues s).1 with triggers := q }, (placeCues cues s).2) := by
  induction cues generalizing s with
  | nil => rfl
  | cons c cues ih =>
    have placed : State.placeCueOut { s with triggers := q } c
        = ({ (s.placeCueOut c).1 with triggers := q }, (s.placeCueOut c).2) := by
      unfold State.placeCueOut
      split <;> rfl
    cases hf : c.forward <;> simp only [placeCues, hf, if_true, Bool.false_eq_true, if_false, placed, ih]

@[simp] theorem queueHearing_nil (now : FrameCount) (q : List TriggerEntry) : queueHearing now [] q = q := ite_self _

@[simp] theorem queueMissing_nil (q : List TriggerEntry) : queueMissing [] q = [] := ite_self _

/-- The cue of the control word is offered to the Trigger Queue as the statements say (R111, R113). -/
theorem offerCues_actedCues {s : State} (h : s.triggers.length ≤ 16) (word : Option ControlWord) (j : Nat) :
    offerCues (fun _ => s.awaited) j (s.actedCues word) s
      = ({ s with triggers := queueHearing s.frameCount (s.heardCue word) s.triggers },
        queueMissing (s.heardCue word) s.triggers) := by
  have silent : s.heardCue word = [] → offerCues (fun _ => s.awaited) j (s.actedCues word) s = (s, []) →
      offerCues (fun _ => s.awaited) j (s.actedCues word) s
        = ({ s with triggers := queueHearing s.frameCount (s.heardCue word) s.triggers },
          queueMissing (s.heardCue word) s.triggers) := by
    intro heard offered
    rw [offered, heard, queueHearing_nil, queueMissing_nil]
  cases word with
  | none => exact silent rfl rfl
  | some w =>
    have acted : s.actedCues (some w) = _ := actedCue_eq s.station w
    by_cases hw : actsOnCue s.station w = true
    · rw [if_pos hw] at acted
      have offered : offerCues (fun _ => s.awaited) j (s.actedCues (some w)) s
          = offerCue s s.awaited (cueNumber (wordPayload w)) (cueOffset (wordPayload w)) := by
        rw [acted]
        simp only [offerCues, List.append_nil]
      obtain ⟨frame, -, full, room⟩ := offerCue_spec h s.awaited (cueNumber (wordPayload w)) (cueOffset (wordPayload w))
      by_cases hp : passesAdmission s s.awaited (cueNumber (wordPayload w)) = true
      · have heard : s.heardCue (some w) = [(cueNumber (wordPayload w), cueOffset (wordPayload w))] :=
          if_pos ⟨hw, (passesAdmission_awaited_iff s _).mp hp⟩
        rw [offered, heard, queueHearing, queueMissing]
        by_cases hfull : s.triggers.length = 16
        · obtain ⟨stays, missed⟩ := full hp hfull
          rw [stays] at frame
          rw [if_pos hfull, if_pos hfull]
          exact Prod.ext frame missed
        · obtain ⟨none, entered⟩ := room hp (by omega)
          rw [entered] at frame
          rw [if_neg hfull, if_neg hfull]
          exact Prod.ext frame none
      · refine silent (if_neg fun heard => hp ((passesAdmission_awaited_iff s _).mpr heard.2)) (offered.trans (if_neg hp))
    · rw [if_neg hw] at acted
      exact silent (if_neg fun heard => hw heard.1) (by rw [acted]; rfl)

/-- The end cues of an arrival as far as the Trigger Queue, and then as far as the Cue Out list. -/
def State.endCuesOffered (s : State) (cues : List EndCue) : State × List Event :=
  offerCues (fun _ => s.awaited) 0 (cues.map fun c => (c.cue, c.offset)) s

def State.endCuesPlaced (s : State) (cues : List EndCue) : State × List Event := placeCues cues (s.endCuesOffered cues).1

theorem State.endCuesOffered_frame (s : State) (cues : List EndCue) : (s.endCuesOffered cues).1
    = { s with triggers := (s.endCuesOffered cues).1.triggers } := offerCues_frame ..

theorem State.endCuesPlaced_frame (s : State) (cues : List EndCue) : (s.endCuesPlaced cues).1
    = { s with triggers := (s.endCuesOffered cues).1.triggers, cueOut := (s.endCuesPlaced cues).1.cueOut } := by
  rw [State.endCuesPlaced, placeCues_frame, State.endCuesOffered_frame]

/-- The whole of the Trigger Unit's part: the end cues offered, the cue word offered, the end cues forwarded (R113). -/
theorem admitAll_actedCues {s : State} (h : s.triggersBounded) (cues : List EndCue) (word : Option ControlWord) :
    admitAll (fun _ => s.awaited) cues (s.actedCues word) s =
      let u := (s.endCuesPlaced cues).1
      ({ u with triggers := queueHearing s.frameCount (s.heardCue word) u.triggers },
        (s.endCuesOffered cues).2 ++ queueMissing (s.heardCue word) u.triggers ++ (s.endCuesPlaced cues).2) := by
  have bound : (s.endCuesOffered cues).1.triggers.length ≤ 16 := offerCues_triggers_length h.1 ..
  have offered := s.endCuesOffered_frame cues
  have triggers : (s.endCuesPlaced cues).1.triggers = (s.endCuesOffered cues).1.triggers := by
    rw [State.endCuesPlaced_frame]
  have heard := offerCues_actedCues bound word (0 + (cues.map fun c => (c.cue, c.offset)).length)
  have same : ∀ t : State, t = { s with triggers := t.triggers } → t.awaited = s.awaited ∧ t.actedCues word = s.actedCues word
      ∧ t.heardCue word = s.heardCue word ∧ t.frameCount = s.frameCount := by
    rintro t ht
    rw [ht]
    exact ⟨rfl, by cases word <;> rfl, by cases word <;> rfl, rfl⟩
  obtain ⟨awaited, acted, cue, count⟩ := same _ offered
  rw [awaited, acted, cue] at heard
  have placed := placeCues_with_triggers cues (s.endCuesOffered cues).1
    (queueHearing (s.endCuesOffered cues).1.frameCount (s.heardCue word) (s.endCuesOffered cues).1.triggers)
  have both := offerCues_append (fun _ => s.awaited) (cues.map fun c => (c.cue, c.offset)) (s.actedCues word) 0 s
  have all : offerCues (fun _ => s.awaited) 0 (cues.map (fun c => (c.cue, c.offset)) ++ s.actedCues word) s
      = (_, (s.endCuesOffered cues).2 ++ _) := both.trans (congrArg (fun b : State × List Event =>
        (b.1, (s.endCuesOffered cues).2 ++ b.2)) heard)
  simp only [triggers, admitAll, all, placed, ← count]
  rfl

/-- The end cue of one record is handled as the statements say. -/
theorem endCueHandled_placed {s : State} (h : s.triggersBounded) {cues : List EndCue} (hc : cues.length ≤ 1) :
    s.endCueHandled (s.endCuesPlaced cues).1 s.frameCount cues (s.endCuesOffered cues).2 (s.endCuesPlaced cues).2 := by
  obtain ⟨hq, hl⟩ := h
  match cues, hc with
  | [], _ => exact ⟨fun _ => ⟨rfl, rfl, rfl, rfl⟩, nofun⟩
  | [c], _ =>
    have offered : s.endCuesOffered [c] = offerCue s s.awaited c.cue c.offset := by
      simp only [State.endCuesOffered, List.map_cons, List.map_nil, offerCues, List.append_nil]
    obtain ⟨-, unwanted, full, room⟩ := offerCue_spec hq s.awaited c.cue c.offset
    simp only [ne_eq, passesAdmission_awaited_iff] at unwanted full room
    have frame := s.endCuesOffered_frame [c]
    have list : (s.endCuesOffered [c]).1.cueOut = s.cueOut := by rw [frame]
    have count : (s.endCuesOffered [c]).1.frameCount = s.frameCount := by rw [frame]
    obtain ⟨-, stays, dropped, sent⟩ := placeCues_singleton_spec (list ▸ hl) c
    rw [list] at stays dropped sent
    rw [count] at sent
    have triggers : (s.endCuesPlaced [c]).1.triggers = (s.endCuesOffered [c]).1.triggers := by
      rw [State.endCuesPlaced_frame]
    refine ⟨nofun, ?_⟩
    rintro _ ⟨⟩
    rw [triggers, offered]
    exact ⟨unwanted, full, room, stays, dropped, sent⟩

end Sys2Proof.Machine
end

section
/-! What an arrival at which only lanes work leaves: its Trigger Queue, its reports and the frame it sends (R113, R187, R193). -/

namespace Sys2Proof.Machine

/-! The arrival as the frame work meets it -/

theorem eq_nil_of_tail_eq_self {α : Type} {l : List α} (h : l.tail = l) : l = [] := by
  cases l with
  | nil => rfl
  | cons x xs => exact absurd h.symm (List.cons_ne_self x xs)

/-- The station that has counted an arrival in, with the samples it takes for received (R129, R130, R135). -/
def State.received (s : State) (samples : SampleSet) (run : Nat) : State :=
  { s with frameCount := s.frameCount + 1, nextBit := s.nextBit + 448, badRun := run, lastGood := samples }

/-- What the station takes from a frame that keeps the lock: its samples and its control word, or the last good samples and
no word, and the run of bad frames (R130, R135). -/
def State.takes (s : State) (line : LineFrame) (samples : SampleSet) (word : Option ControlWord) (run : Nat) : Prop :=
  (frameOfLine line).good ∧ samples = (frameOfLine line).samples ∧ word = some (frameOfLine line).control ∧ run = 0
    ∨ ¬(frameOfLine line).good ∧ s.badRun < 2 ∧ samples = s.lastGood ∧ word = none ∧ run = s.badRun + 1

/-- A frame that keeps the lock gives the station samples, whatever its control word. -/
theorem State.exists_takes {s : State} {line : LineFrame} {word : Option ControlWord}
    (h : (frameOfLine line).good ∧ word = some (frameOfLine line).control
      ∨ ¬(frameOfLine line).good ∧ s.badRun < 2 ∧ word = none) : ∃ samples run, s.takes line samples word run := by
  rcases h with ⟨good, control⟩ | ⟨bad, few, none⟩
  · exact ⟨_, _, .inl ⟨good, rfl, control, rfl⟩⟩
  · exact ⟨_, _, .inr ⟨bad, few, rfl, none, rfl⟩⟩

theorem State.heardCue_received (s : State) (samples : SampleSet) (run : Nat) (word : Option ControlWord) :
    (s.received samples run).heardCue word = s.heardCue word := by cases word <;> rfl

/-- With nothing due no unit has work but one that is RECORDING. -/
theorem State.unitsRest_of_nothing_due {s : State} (hu : ∀ u, (s.unit u).state ≠ .recording)
    (hq : ∀ e ∈ s.triggers, e.fallsDue s.frameCount = false) : s.unitsRest := by
  have nothing : s.dueEntries = [] := List.filter_eq_nil_iff.mpr fun e he => by simp [hq e he]
  exact fun u => ⟨hu u, by rw [nothing]; rfl⟩

/-! What the lanes' work leaves to the Trigger Unit -/

theorem State.triggersBounded.emitted {s : State} (h : s.triggersBounded) (word : Option ControlWord) :
    (s.emitted word).triggersBounded := by
  obtain ⟨triggers, cueOut⟩ := h
  have fewer : s.dropDue.triggersBounded := ⟨(List.length_filter_le ..).trans triggers, cueOut⟩
  unfold State.emitted
  cases arbitrate s word with
  | cueOut e => exact ⟨fewer.1, List.length_tail.trans_le ((Nat.sub_le ..).trans cueOut)⟩
  | pass w => exact fewer
  | report w => exact fewer
  | idle => exact fewer

theorem State.triggersBounded.arrivalMixed {s : State} (h : s.triggersBounded) (word : Option ControlWord) :
    (s.arrivalMixed word).triggersBounded := by
  rw [State.arrivalMixed_frame]
  exact h.emitted word

theorem State.arrivalMixed_frameCount (s : State) (word : Option ControlWord) :
    (s.arrivalMixed word).frameCount = s.frameCount := by
  rw [State.arrivalMixed_frame, State.emitted_frame]
  rfl

theorem State.heardCue_arrivalMixed (s : State) (word : Option ControlWord) :
    (s.arrivalMixed word).heardCue word = s.heardCue word := by
  rw [State.arrivalMixed_frame, State.emitted_frame]
  cases word <;> rfl

theorem State.actedCues_arrivalMixed (s : State) (word : Option ControlWord) :
    (s.arrivalMixed word).actedCues word = s.actedCues word := by
  rw [State.arrivalMixed_frame, State.emitted_frame]
  cases word <;> rfl

/-- The station once the end cues of the arrival have been offered and forwarded (R113, R118). -/
def State.arrivalPlaced (s : State) (word : Option ControlWord) : State :=
  ((s.arrivalMixed word).endCuesPlaced (s.arrivalLanes word).endCues).1

theorem State.arrivalPlaced_frame (s : State) (word : Option ControlWord) : s.arrivalPlaced word
    = { s.arrivalMixed word with
        triggers := (s.arrivalPlaced word).triggers, cueOut := (s.arrivalPlaced word).cueOut } := by
  have placed := (s.arrivalMixed word).endCuesPlaced_frame (s.arrivalLanes word).endCues
  unfold State.arrivalPlaced
  rw [placed]

/-- The MISSED CUE reports of the arrival's end cues. -/
def State.arrivalMissed (s : State) (word : Option ControlWord) : List Event :=
  ((s.arrivalMixed word).endCuesOffered (s.arrivalLanes word).endCues).2

/-- The CUE OUT DROPPED reports of the arrival. -/
def State.arrivalDropped (s : State) (word : Option ControlWord) : List Event :=
  ((s.arrivalMixed word).endCuesPlaced (s.arrivalLanes word).endCues).2

/-- The reports of an arrival at which only lanes work, in the order of R187. -/
def State.arrivalEvents (s : State) (word : Option ControlWord) : List Event :=
  (s.arrivalLanes word).reports ++ (s.arrivalLanes word).st.freeDoomed.2
    ++ (s.arrivalMissed word ++ queueMissing (s.heardCue word) (s.arrivalPlaced word).triggers ++ s.arrivalDropped word)

/-- The station once the Trigger Unit has done its part. -/
def State.arrivalDone (s : State) (word : Option ControlWord) : State :=
  { s.arrivalPlaced word with
    triggers := queueHearing s.frameCount (s.heardCue word) (s.arrivalPlaced word).triggers }

theorem arrivalAdmitted_eq {s : State} (h : s.triggersBounded) (word : Option ControlWord) : s.arrivalAdmitted word
    = (s.arrivalDone word, s.arrivalMissed word ++ queueMissing (s.heardCue word) (s.arrivalPlaced word).triggers
        ++ s.arrivalDropped word) := by
  have admitted := admitAll_actedCues (h.arrivalMixed word) (s.arrivalLanes word).endCues word
  rw [s.actedCues_arrivalMixed, s.heardCue_arrivalMixed, s.arrivalMixed_frameCount] at admitted
  rw [State.arrivalAdmitted, admitted]
  rfl

/-- How the end cue of one lane is handled at an arrival (R111, R113, R118, R119). -/
theorem endCueHandled_arrival {s : State} (h : s.triggersBounded) (word : Option ControlWord)
    (hc : (s.arrivalLanes word).endCues.length ≤ 1) : (s.emitted word).endCueHandled (s.arrivalPlaced word) s.frameCount
      (s.arrivalLanes word).endCues (s.arrivalMissed word) (s.arrivalDropped word) := by
  have handled := endCueHandled_placed (h.arrivalMixed word) hc
  rw [s.arrivalMixed_frameCount] at handled
  refine State.endCueHandled_congr handled ?_ ?_ ?_ ?_ rfl rfl <;> rw [State.arrivalMixed_frame]

/-! The arrival -/

section arrival
variable {s : State} {line : LineFrame} {samples : SampleSet} {word : Option ControlWord} {run : Nat}

theorem exec_frameArrival_of_takes (hl : s.lock = .locked) (ht : s.takes line samples word run)
    (hn : (frameWork samples word (s.received samples run)).2 = none) :
    exec (.frameArrival line) s = .next (frameWork samples word (s.received samples run)).1 := by
  rw [exec_frameArrival line hl]
  refine congrArg Host.Outcome.next ?_
  rcases ht with ⟨good, rfl, rfl, rfl⟩ | ⟨bad, few, rfl, rfl, rfl⟩
  · have worked : arriveGood (frameOfLine line).samples (frameOfLine line).control s
        = takeComplete (frameWork (frameOfLine line).samples (some (frameOfLine line).control)
            (s.received (frameOfLine line).samples 0)).2
          (frameWork (frameOfLine line).samples (some (frameOfLine line).control)
            (s.received (frameOfLine line).samples 0)).1 := rfl
    rw [arriveLocked_good s good, worked, hn]
    rfl
  · have counted : s.badRun + 1 < 3 := Nat.succ_lt_succ few
    rw [arriveLocked, if_neg bad, if_pos counted]
    rfl

/-- FRAME_ARRIVAL with no work for the units and none for the Order Unit. -/
theorem exec_frameArrival_of_rest (hs : s.triggersBounded) (hb : s.reportsBounded) (hl : s.lock = .locked)
    (ht : s.takes line samples word run) (hu : (s.received samples run).unitsRest)
    (ha : ∀ a, s.assembly = some a → s.frameCount + 1 ≠ a.start + 2048)
    (hw : ∀ w, word = some w → ¬forOrderUnit s.station w) :
    let c := s.received samples run
    exec (.frameArrival line) s = .next { offerAndDepart s.choices ((arbitrate c word).endsReport c) (c.arrivalEvents word)
        (c.arrivalDone word) with
      lineOut := composeFrame (mixFrame (c.arrivalMixed word) samples) (s.slotOutcome (s.frameCount + 1) word).1
      choices := s.choices + 1 } := by
  intro c
  have work := frameWork_of_rest (programme := samples) hu ha hw
  rw [arrivalAdmitted_eq (s := s.received samples run) hs] at work
  obtain ⟨sent, -⟩ := arbitrate_agrees (s := s.received samples run) hb word
  rw [exec_frameArrival_of_takes hl ht (by rw [work]), work, sent]
  rfl

/-- The same when no report leaves: the reports of the arrival are offered behind the ones that wait (R187). -/
theorem exec_frameArrival_of_no_departure (hs : s.triggersBounded) (hb : s.reportsBounded) (hl : s.lock = .locked)
    (ht : s.takes line samples word run) (hu : (s.received samples run).unitsRest)
    (ha : ∀ a, s.assembly = some a → s.frameCount + 1 ≠ a.start + 2048)
    (hw : ∀ w, word = some w → ¬forOrderUnit s.station w)
    (ho : (s.slotOutcome (s.frameCount + 1) word).2.2.1 = s.reports) :
    let c := s.received samples run
    let out := s.slotOutcome (s.frameCount + 1) word
    exec (.frameArrival line) s = .next { (c.arrivalDone word).offerEvents (c.arrivalEvents word) with
        lineOut := composeFrame (mixFrame (c.arrivalMixed word) samples) out.1, choices := s.choices + 1 }
      ∧ c.emitted word = { c.dropDue with cueOut := out.2.1, wordPos := out.2.2.2 } := by
  intro c out
  have ran := exec_frameArrival_of_rest hs hb hl ht hu ha hw
  obtain ⟨-, ⟨stays, -, emit⟩ | ⟨-, some, gone, -⟩⟩ := arbitrate_agrees (s := c) hb word
  · have stays' : (arbitrate (s.received samples run) word).endsReport (s.received samples run) = false := stays
    simp only [stays', offerAndDepart, Bool.false_eq_true, if_false] at ran
    refine ⟨?_, ?_⟩
    · exact ran
    · exact emit c.dropDue rfl rfl
  · have fewer : s.reports.tail = s.reports := gone.symm.trans ho
    exact absurd (eq_nil_of_tail_eq_self fewer) some

end arrival

end Sys2Proof.Machine
end

section
/-! The lanes' steps at an arrival that brings them no trigger (R23, R24). -/

namespace Sys2Proof.Machine

theorem LaneWork.setLane_setLane (w : LaneWork) (i : Fin 8) (l m : Lane) : (w.setLane i l).setLane i m = w.setLane i m :=
  congrArg (fun s : State => ({ w with st := s } : LaneWork)) (State.setLane_setLane ..)

theorem LaneWork.setLane_self (w : LaneWork) (i : Fin 8) : w.setLane i (w.st.lane i) = w :=
  congrArg (fun s : State => ({ w with st := s } : LaneWork)) (State.setLane_self ..)

@[simp] theorem LaneWork.setLane_lane_self (w : LaneWork) (i : Fin 8) (l : Lane) : (w.setLane i l).st.lane i = l :=
  (LaneWork.setLane_lane ..).trans (if_pos rfl)

/-- The context of a lane at the next arrival, before its waiting order and its end (R24). -/
def Lane.stepped (l : Lane) : Lane := if l.busy then { l with k := l.k + 1 } else l

theorem Lane.stepped_of_busy {l : Lane} (h : l.busy = true) : l.stepped = { l with k := l.k + 1 } := if_pos h

theorem advanceLane_eq (i : Fin 8) (w : LaneWork) : advanceLane i w = w.setLane i (w.st.lane i).stepped := by
  unfold advanceLane Lane.stepped
  dsimp only
  split
  · rfl
  · exact (w.setLane_self i).symm

theorem applyWaiting_of_none {i : Fin 8} {w : LaneWork} (h : (w.st.lane i).waiting = none) : applyWaiting i w = w := by
  simp only [applyWaiting, h]

theorem laneSteps_nil (i : Fin 8) (w : LaneWork) :
    laneSteps [] i w = endIfDue i (applyWaiting i (w.setLane i (w.st.lane i).stepped)) := by
  rw [← advanceLane_eq]
  rfl

theorem Lane.stepped_waiting (l : Lane) : l.stepped.waiting = l.waiting := by
  unfold Lane.stepped
  split <;> rfl

theorem Lane.stepped_busy (l : Lane) : l.stepped.busy = l.busy := by
  unfold Lane.stepped
  split <;> rfl

/-- A lane that no order waits at and that the next arrival does not end (R23). -/
def Lane.runsOn (l : Lane) : Prop := l.waiting = none ∧ (l.busy = true → l.k + 1 ≠ l.total)

theorem laneSteps_of_runsOn {i : Fin 8} {w : LaneWork} (h : (w.st.lane i).runsOn) :
    laneSteps [] i w = w.setLane i (w.st.lane i).stepped := by
  obtain ⟨waiting, below⟩ := h
  rw [laneSteps_nil, applyWaiting_of_none (by rw [LaneWork.setLane_lane_self, Lane.stepped_waiting, waiting])]
  cases hb : (w.st.lane i).busy with
  | true => exact endIfDue_of_ne (by rw [LaneWork.setLane_lane_self, Lane.stepped_of_busy hb]; exact below hb)
  | false =>
    have idle : ((w.setLane i (w.st.lane i).stepped).st.lane i).busy = false := by
      rw [LaneWork.setLane_lane_self, Lane.stepped_busy, hb]
    simp only [endIfDue, idle, Bool.false_and, Bool.false_eq_true, if_false]

/-- The arrival that brings a lane's counter to its total ends its record (R24, R29). -/
theorem laneSteps_of_reaches {i : Fin 8} {w : LaneWork} (hb : (w.st.lane i).busy = true)
    (hw : (w.st.lane i).waiting = none) (hk : (w.st.lane i).k + 1 = (w.st.lane i).total) :
    laneSteps [] i w = endRecord i (w.setLane i (w.st.lane i).stepped) := by
  rw [laneSteps_nil, applyWaiting_of_none (by rw [LaneWork.setLane_lane_self, Lane.stepped_waiting, hw]),
    endIfDue_of_eq (by rw [LaneWork.setLane_lane_self, Lane.stepped_busy, hb])]
  rw [LaneWork.setLane_lane_self, Lane.stepped_of_busy hb, hk]

/-- `n` arrivals add `n` to the counter of a lane that they do not end (R24). -/
theorem iterate_laneSteps {i : Fin 8} {w : LaneWork} (hb : (w.st.lane i).busy = true)
    (hw : (w.st.lane i).waiting = none) (n : Nat) (hk : (w.st.lane i).k + n < (w.st.lane i).total) :
    (laneSteps [] i)^[n] w = w.setLane i { w.st.lane i with k := (w.st.lane i).k + n } := by
  induction n with
  | zero => exact (w.setLane_self i).symm
  | succ n ih =>
    have own := w.setLane_lane_self i { w.st.lane i with k := (w.st.lane i).k + n }
    rw [Function.iterate_succ_apply', ih (Nat.lt_of_succ_lt hk), laneSteps_of_runsOn, own,
      Lane.stepped_of_busy (l := { w.st.lane i with k := (w.st.lane i).k + n }) hb, LaneWork.setLane_setLane]
    · rfl
    · rw [own]
      exact ⟨hw, fun _ => hk.ne⟩

/-- The arrival that brings `k` to the total is the end of R29. -/
theorem iterate_laneSteps_succ {i : Fin 8} {w : LaneWork} (hb : (w.st.lane i).busy = true)
    (hw : (w.st.lane i).waiting = none) (n : Nat) (hk : (w.st.lane i).k + n + 1 = (w.st.lane i).total) :
    (laneSteps [] i)^[n + 1] w = endRecord i (w.setLane i { w.st.lane i with k := (w.st.lane i).total }) := by
  have own := w.setLane_lane_self i { w.st.lane i with k := (w.st.lane i).k + n }
  rw [Function.iterate_succ_apply', iterate_laneSteps hb hw n (Nat.lt_of_succ_le hk.le), laneSteps_of_reaches, own,
    Lane.stepped_of_busy (l := { w.st.lane i with k := (w.st.lane i).k + n }) hb, LaneWork.setLane_setLane]
  · dsimp only
    rw [hk]
  · rw [own]
    exact hb
  · rw [own]
    exact hw
  · rw [own]
    exact hk

/-! A lane's steps leave the other lanes alone -/

/-- The contexts of the lanes other than `i` are the same. -/
def LaneWork.OthersKept (i : Fin 8) (w v : LaneWork) : Prop := ∀ j, j ≠ i → v.st.lane j = w.st.lane j

section others
variable {i : Fin 8} {w v x : LaneWork}

theorem LaneWork.OthersKept.refl (i : Fin 8) (w : LaneWork) : OthersKept i w w := fun _ _ => rfl

theorem LaneWork.OthersKept.trans (h : OthersKept i w v) (h' : OthersKept i v x) : OthersKept i w x :=
  fun j hj => (h' j hj).trans (h j hj)

theorem LaneWork.othersKept_setLane (w : LaneWork) (i : Fin 8) (l : Lane) : OthersKept i w (w.setLane i l) :=
  fun _ hj => (LaneWork.setLane_lane ..).trans (if_neg hj)

theorem LaneWork.othersKept_report (w : LaneWork) (i : Fin 8) (es : List Event) : OthersKept i w (w.report es) :=
  fun _ _ => rfl

theorem LaneWork.othersKept_releaseClaims (w : LaneWork) (i : Fin 8) (r : Record) (es : List Event) (cs : List EndCue) :
    OthersKept i w { st := releaseClaims i r w.st, reports := es, endCues := cs } :=
  fun j hj => (releaseClaims_lane i r w.st j).trans (if_neg hj)

theorem LaneWork.othersKept_loadRecord (w : LaneWork) (i : Fin 8) (index : Fin 256) :
    OthersKept i w (loadRecord i index w) := by
  rcases loadRecord_cases i index w with ⟨r, -, h⟩ | ⟨reason, -, h⟩ <;> rw [h]
  · exact fun j hj => (commitLoad_lane i index r w j).trans (if_neg hj)
  · exact (w.othersKept_setLane i _).trans (LaneWork.othersKept_report _ _ _)

theorem LaneWork.othersKept_endRecord (w : LaneWork) (i : Fin 8) : OthersKept i w (endRecord i w) := by
  rcases endRecord_cases i w with ⟨-, h⟩ | ⟨r, -, ⟨index, -, h⟩ | ⟨-, -, h⟩⟩ <;> rw [h]
  · exact LaneWork.OthersKept.refl i w
  · exact (w.othersKept_releaseClaims i r _ _).trans (LaneWork.othersKept_loadRecord _ _ _)
  · exact (w.othersKept_releaseClaims i r _ _).trans (LaneWork.othersKept_setLane _ _ _)

theorem LaneWork.othersKept_applyWaiting (w : LaneWork) (i : Fin 8) : OthersKept i w (applyWaiting i w) := by
  cases hw : (w.st.lane i).waiting with
  | none => exact (applyWaiting_of_none hw).symm ▸ LaneWork.OthersKept.refl i w
  | some order =>
    cases hr : (w.st.lane i).copy with
    | none => cases order <;> simp only [applyWaiting, hw, applyReleaseOrder, applyAbortOrder, hr] <;> exact .refl i w
    | some r =>
      cases order with
      | release =>
        simp only [applyWaiting, hw, applyReleaseOrder_of_copy hr]
        exact (w.othersKept_setLane i _).trans (LaneWork.othersKept_report _ _ _)
      | abort =>
        simp only [applyWaiting, hw, applyAbortOrder_of_copy hr]
        exact (w.othersKept_releaseClaims i r _ _).trans (LaneWork.othersKept_setLane _ _ _)

theorem LaneWork.othersKept_endIfDue (w : LaneWork) (i : Fin 8) : OthersKept i w (endIfDue i w) := by
  unfold endIfDue
  dsimp only
  split
  · exact w.othersKept_endRecord i
  · exact .refl i w

theorem LaneWork.othersKept_cutTrigger (w : LaneWork) (i : Fin 8) (t : LaneTrigger) :
    OthersKept i w (cutTrigger i t w) := by
  cases hr : (w.st.lane i).copy with
  | none => simp only [cutTrigger, hr]; exact .refl i w
  | some r =>
    have cut := (w.othersKept_report i (supersededReport i (w.st.lane i))).trans
      (LaneWork.othersKept_setLane _ i ((w.st.lane i).afterCut r t.record))
    rw [cutTrigger_of_copy hr]
    dsimp only
    split
    · exact cut.trans (LaneWork.othersKept_endRecord _ _)
    · exact cut

theorem LaneWork.othersKept_applyTrigger (w : LaneWork) (i : Fin 8) (t : LaneTrigger) :
    OthersKept i w (applyTrigger i w t) := by
  by_cases hidle : (w.st.lane i).phase = .idle
  · exact (applyTrigger_of_idle hidle t).symm ▸ w.othersKept_loadRecord i t.record
  · cases hp : t.policy with
    | skip => exact (applyTrigger_of_skip hidle hp).symm ▸ .refl i w
    | cut => exact (applyTrigger_of_cut hidle hp).symm ▸ w.othersKept_cutTrigger i t
    | queue =>
      by_cases hn : (w.st.lane i).pending = none
      · exact (applyTrigger_of_queue hidle hp hn).symm ▸ w.othersKept_setLane i _
      · exact (applyTrigger_of_queue_full hidle hp hn).symm ▸ w.othersKept_report i _

theorem LaneWork.othersKept_applyTriggers (w : LaneWork) (ts : List LaneTrigger) (i : Fin 8) :
    OthersKept i w (applyTriggers ts i w) := by
  unfold applyTriggers
  exact List.foldlRecOn (motive := OthersKept i w) (ts.filter fun t => t.lane == i) (applyTrigger i) (.refl i w)
    fun v hv t _ => hv.trans (v.othersKept_applyTrigger i t)

/-- The steps of lane `i` are its own (R23). -/
theorem LaneWork.othersKept_laneSteps (w : LaneWork) (ts : List LaneTrigger) (i : Fin 8) :
    OthersKept i w (laneSteps ts i w) := by
  have advanced : OthersKept i w (advanceLane i w) := advanceLane_eq i w ▸ w.othersKept_setLane i _
  exact ((advanced.trans (LaneWork.othersKept_applyWaiting _ _)).trans (LaneWork.othersKept_endIfDue _ _)).trans
    (LaneWork.othersKept_applyTriggers _ _ _)

end others

/-! The row of the lanes -/

/-- Lanes that run on each advance alone. -/
theorem foldl_laneSteps_of_runsOn {is : List (Fin 8)} (hn : is.Nodup) {w : LaneWork} (h : ∀ i ∈ is, (w.st.lane i).runsOn) :
    let v := is.foldl (fun w i => laneSteps [] i w) w
    v = { w with st := { w.st with lanes := v.st.lanes } }
      ∧ ∀ j, v.st.lane j = if j ∈ is then (w.st.lane j).stepped else w.st.lane j := by
  induction is generalizing w with
  | nil => exact ⟨rfl, fun j => (if_neg List.not_mem_nil).symm⟩
  | cons i is ih =>
    obtain ⟨apart, rest⟩ := List.nodup_cons.mp hn
    have step := laneSteps_of_runsOn (h i List.mem_cons_self)
    have others : ∀ j, j ∈ is → (w.setLane i (w.st.lane i).stepped).st.lane j = w.st.lane j := fun j hj =>
      (LaneWork.setLane_lane ..).trans (if_neg (ne_of_mem_of_not_mem hj apart))
    obtain ⟨frame, lanes⟩ := ih rest (w := w.setLane i (w.st.lane i).stepped) fun j hj => by
      rw [others j hj]
      exact h j (List.mem_cons_of_mem i hj)
    rw [List.foldl_cons, step]
    refine ⟨frame, fun j => (lanes j).trans ?_⟩
    by_cases hj : j ∈ is
    · rw [if_pos hj, others j hj, if_pos (List.mem_cons_of_mem i hj)]
    · rw [if_neg hj, LaneWork.setLane_lane]
      by_cases hi : j = i
      · rw [if_pos hi, hi, if_pos List.mem_cons_self]
      · rw [if_neg hi, if_neg (by simp [hi, hj])]

/-- An arrival at which every lane runs on advances every lane and does nothing else (R23). -/
theorem lanesRow_of_runsOn {s : State} (h : ∀ i, (s.lane i).runsOn) :
    lanesRow [] s = LaneWork.start { s with lanes := (lanesRow [] s).st.lanes }
      ∧ ∀ i, (lanesRow [] s).st.lane i = (s.lane i).stepped := by
  obtain ⟨frame, lanes⟩ := foldl_laneSteps_of_runsOn (List.nodup_finRange 8) (w := LaneWork.start s) fun i _ => h i
  rw [← lanesRow] at frame
  exact ⟨frame, fun i => (lanes i).trans (if_pos (List.mem_finRange i))⟩

theorem Lane.idle_runsOn : Lane.idle.runsOn := ⟨rfl, nofun⟩

/-- The steps of an IDLE lane are those of its triggers. -/
theorem laneSteps_of_idle (ts : List LaneTrigger) {j : Fin 8} {w : LaneWork} (h : w.st.lane j = Lane.idle) :
    laneSteps ts j w = applyTriggers ts j w := by
  have still : laneSteps [] j w = w := by
    rw [laneSteps_of_runsOn (h.symm ▸ Lane.idle_runsOn), h]
    exact (congrArg (w.setLane j) h.symm).trans (w.setLane_self j)
  exact congrArg (applyTriggers ts j) still

/-- Where only lane `i` is busy, the row is the steps of lane `i`. -/
theorem lanesRow_of_one {s : State} {i : Fin 8} (h : ∀ j, j ≠ i → s.lane j = Lane.idle) :
    lanesRow [] s = laneSteps [] i (LaneWork.start s) := by
  rw [lanesRow, foldl_eq_foldl_filter (P := fun w => ∀ j, j ≠ i → w.st.lane j = Lane.idle) (p := (· == i)) ?_ ?_ h,
    filter_finRange_eq_singleton]
  · rfl
  · intro w j hw hj k hk
    obtain rfl := beq_iff_eq.mp hj
    exact (w.othersKept_laneSteps [] j k hk).trans (hw k hk)
  · exact fun w j hw hj => laneSteps_of_idle [] (hw j (by simpa using hj))

end Sys2Proof.Machine
end

section
/-! An arrival that finds nothing due and every lane running on (R23, R24, R46, R60, R113, R193). -/

namespace Sys2Proof.Machine

/-! Nothing due, nothing freed -/

theorem State.dueEntries_of_nothing {s : State} (h : ∀ e ∈ s.triggers, e.fallsDue s.frameCount = false) :
    s.dueEntries = [] := List.filter_eq_nil_iff.mpr fun e he => by simp [h e he]

theorem State.dropDue_of_nothing {s : State} (h : ∀ e ∈ s.triggers, e.fallsDue s.frameCount = false) : s.dropDue = s := by
  have all : (s.triggers.filter fun e => !e.fallsDue s.frameCount) = s.triggers :=
    List.filter_eq_self.mpr fun e he => by simp [h e he]
  rw [State.dropDue, all]

theorem State.arrivalLanes_of_nothing_due {s : State} (h : ∀ e ∈ s.triggers, e.fallsDue s.frameCount = false)
    (word : Option ControlWord) : s.arrivalLanes word = lanesRow [] (s.emitted word) := by
  rw [State.arrivalLanes, State.dueEntries_of_nothing h]
  rfl

theorem State.freeDoomed_of_nothing {s : State} (h : s.doomedUnused = []) : s.freeDoomed = (s, []) := by
  simp only [State.freeDoomed, h]
  rfl

theorem State.emitted_lane (s : State) (word : Option ControlWord) (i : Fin 8) : (s.emitted word).lane i = s.lane i := by
  rw [State.emitted_frame]
  rfl

section silent
variable {s : State} {word : Option ControlWord}

theorem State.arrivalMixed_of_nothing_freed (hd : (s.arrivalLanes word).st.doomedUnused = []) :
    s.arrivalMixed word = setPhases (s.arrivalLanes word).st := by
  rw [State.arrivalMixed, State.freeDoomed_of_nothing hd]

theorem State.arrivalPlaced_of_no_end_cue (hc : (s.arrivalLanes word).endCues = []) :
    s.arrivalPlaced word = s.arrivalMixed word := by
  rw [State.arrivalPlaced, hc]
  rfl

theorem State.arrivalEvents_of_no_end_cue (hd : (s.arrivalLanes word).st.doomedUnused = [])
    (hc : (s.arrivalLanes word).endCues = []) : s.arrivalEvents word
      = (s.arrivalLanes word).reports ++ queueMissing (s.heardCue word) (s.arrivalMixed word).triggers := by
  have missed : s.arrivalMissed word = [] := by rw [State.arrivalMissed, hc]; rfl
  have dropped : s.arrivalDropped word = [] := by rw [State.arrivalDropped, hc]; rfl
  rw [State.arrivalEvents, State.freeDoomed_of_nothing hd, missed, dropped, State.arrivalPlaced_of_no_end_cue hc]
  simp only [List.append_nil, List.nil_append]

end silent

/-! Every lane runs on -/

/-- The context of a lane after an arrival that lets its record run on (R24, R55). -/
def Lane.atNextFrame (l : Lane) : Lane :=
  match l.copy with
  | none => l
  | some r => { l with k := l.k + 1, phase := phaseAt r l.total (l.k + 1) }

/-- A station after an arrival that lets every record run on, as far as its lanes go. -/
def State.lanesAtNextFrame (s : State) : Vector Lane 8 := Vector.ofFn fun i => (s.lane i).atNextFrame

/-- Phases set on lanes that have each stepped (R23, R24, R55). -/
theorem setPhases_of_stepped {s t : State} (hs : s.lanesSound) (ht : ∀ i, t.lane i = (s.lane i).stepped) :
    setPhases t = { t with lanes := s.lanesAtNextFrame } := by
  refine congrArg (fun lanes => { t with lanes := lanes }) (congrArg Vector.ofFn (funext fun i => ?_))
  show (match (t.lane i).copy with
    | none => t.lane i
    | some r => { t.lane i with phase := phaseAt r (t.lane i).total (t.lane i).k }) = _
  rw [ht i]
  cases hr : (s.lane i).copy with
  | none =>
    have idle : (s.lane i).busy = false := by
      rcases hs.1 i with idle | ⟨r, hr', -⟩
      · rw [idle]; rfl
      · rw [hr] at hr'; cases hr'
    have stays : (s.lane i).stepped = s.lane i := if_neg (by simp [idle])
    simp only [stays, Lane.atNextFrame, hr]
  | some r => simp only [Lane.stepped_of_busy ((hs.1 i).busy hr), Lane.atNextFrame, hr]

/-- An arrival at which nothing falls due and every lane runs on: what stands before the reports are offered. -/
theorem State.arrival_runs_on {s c : State} (hs : s.Sound) (hc : c.clips = s.clips) (hl : c.lanes = s.lanes)
    (hq : ∀ e ∈ c.triggers, e.fallsDue c.frameCount = false) (hr : ∀ i, (s.lane i).runsOn) (word : Option ControlWord) :
    c.arrivalMixed word = { c.emitted word with lanes := s.lanesAtNextFrame }
      ∧ c.arrivalPlaced word = c.arrivalMixed word
      ∧ c.arrivalEvents word = queueMissing (c.heardCue word) (c.emitted word).triggers := by
  have lane : ∀ i, (c.emitted word).lane i = s.lane i := fun i => (c.emitted_lane word i).trans (State.lane_congr hl i)
  obtain ⟨row, lanes⟩ := lanesRow_of_runsOn (s := c.emitted word) fun i => (lane i).symm ▸ hr i
  have work := State.arrivalLanes_of_nothing_due hq word
  have st : (c.arrivalLanes word).st = { c.emitted word with lanes := (lanesRow [] (c.emitted word)).st.lanes } :=
    (congrArg LaneWork.st (work.trans row))
  have cues : (c.arrivalLanes word).endCues = [] := congrArg LaneWork.endCues (work.trans row)
  have reports : (c.arrivalLanes word).reports = [] := congrArg LaneWork.reports (work.trans row)
  have nothing : (c.arrivalLanes word).st.doomedUnused = [] := by
    refine hs.doomedUnused ?_
    rw [st, State.emitted_frame]
    exact hc
  have mixed : c.arrivalMixed word = { c.emitted word with lanes := s.lanesAtNextFrame } := by
    rw [State.arrivalMixed_of_nothing_freed nothing, setPhases_of_stepped hs.lanes fun i => ?_, st]
    rw [work, lanes i, lane i]
  refine ⟨mixed, State.arrivalPlaced_of_no_end_cue cues, ?_⟩
  rw [State.arrivalEvents_of_no_end_cue nothing cues, reports, mixed]
  rfl

/-- What slot `j` carries when every lane has stepped (R46, R60). -/
theorem formSlot_atNextFrame (s : State) (samples : SampleSet) (j : Fin 16) :
    formSlot { s with lanes := s.lanesAtNextFrame } samples j =
      match s.slots[j] with
      | none => samples[j]
      | some i =>
        match (s.lane i).copy with
        | none => samples[j]
        | some r =>
          match r.voices.find? fun v => v.slot == j with
          | none => samples[j]
          | some v =>
            mixSample s (s.readClipSample v.clip.val (r.start + ((s.lane i).k + 1) % (s.lane i).effLen)) samples[j]
              (fadeIndex r (s.lane i).total ((s.lane i).k + 1)) r.under.val := by
  have lane : ∀ i, State.lane { s with lanes := s.lanesAtNextFrame } i = (s.lane i).atNextFrame := fun i =>
    Vector.getElem_ofFn i.isLt
  cases ho : s.slots[j] with
  | none => simp only [formSlot, ho]
  | some i => cases hr : (s.lane i).copy <;> simp only [formSlot, ho, lane i, Lane.atNextFrame, hr] <;> rfl

/-- An offer does not read the line or the count of choices. -/
theorem State.offerEvents_with_line (s : State) (line : LineFrame) (choices : Nat) (es : List Event) :
    ({ s with lineOut := line, choices := choices } : State).offerEvents es
      = { s.offerEvents es with lineOut := line, choices := choices } := by
  have same : s.SameReports { s with lineOut := line, choices := choices } := ⟨rfl, rfl, rfl⟩
  obtain ⟨reports, lost, seq⟩ := same.offerEvents es
  rw [State.offerEvents_frame, State.offerEvents_frame s, reports, lost, seq]

theorem offerAndDepart_of_stays (n : Nat) (es : List Event) (s : State) :
    offerAndDepart n false es s = s.offerEvents es := rfl

theorem offerAndDepart_of_leaves (n : Nat) (s : State) : offerAndDepart n true [] s = s.dropHeadReport := rfl

/-- FRAME_ARRIVAL with nothing due and every lane running on; `mix` is what the lanes as the arrival leaves them mix. -/
theorem exec_frameArrival_runs_on {s : State} {line : LineFrame} {samples mix : SampleSet} {word : Option ControlWord}
    {run : Nat} (hs : s.Sound) (hl : s.lock = .locked) (ht : s.takes line samples word run)
    (ha : ∀ a, s.assembly = some a → s.frameCount + 1 ≠ a.start + 2048) (hu : ∀ u, (s.unit u).state ≠ .recording)
    (hq : ∀ e ∈ s.triggers, e.fallsDue (s.frameCount + 1) = false) (hr : ∀ i, (s.lane i).runsOn)
    (hw : ∀ w, word = some w → ¬forOrderUnit s.station w)
    (hm : mixFrame { s with lanes := s.lanesAtNextFrame } samples = mix) :
    let out := s.slotOutcome (s.frameCount + 1) word
    let missed := queueMissing (s.heardCue word) s.triggers
    (missed = [] ∨ out.2.2.1 = s.reports) →
    exec (.frameArrival line) s = .next
      (({ s with
        frameCount := s.frameCount + 1
        nextBit := s.nextBit + 448
        badRun := run
        lastGood := samples
        choices := s.choices + 1
        lanes := s.lanesAtNextFrame
        lineOut := composeFrame mix out.1
        triggers := queueHearing (s.frameCount + 1) (s.heardCue word) s.triggers
        cueOut := out.2.1
        reports := out.2.2.1
        wordPos := out.2.2.2 } : State).offerEvents missed) := by
  intro out missed room
  obtain ⟨mixed, placed, events⟩ := State.arrival_runs_on (c := s.received samples run) hs rfl rfl hq hr word
  have ran := exec_frameArrival_of_rest hs.triggers hs.reports hl ht
    (State.unitsRest_of_nothing_due (s := s.received samples run) hu hq) ha hw
  have kept : (s.received samples run).dropDue = s.received samples run := State.dropDue_of_nothing hq
  have frame := (s.received samples run).emitted_frame word
  rw [kept] at frame
  have sound : mixFrame ((s.received samples run).arrivalMixed word) samples = mix := by
    rw [mixed, frame]
    exact hm
  have raised : (s.received samples run).arrivalEvents word = missed := by
    rw [events, State.heardCue_received, frame]
    rfl
  have done : (s.received samples run).arrivalDone word = { (s.received samples run).emitted word with
      lanes := s.lanesAtNextFrame
      triggers := queueHearing (s.frameCount + 1) (s.heardCue word) s.triggers } := by
    rw [State.arrivalDone, placed, mixed, State.heardCue_received, frame]
    rfl
  rw [ran, sound, raised, done]
  refine congrArg Host.Outcome.next ?_
  obtain ⟨-, ⟨stays, same, emit⟩ | ⟨ends, waits, gone, first, emit⟩⟩ :=
    arbitrate_agrees (s := s.received samples run) hs.reports word
  · have emitted : (s.received samples run).emitted word
        = { s.received samples run with cueOut := out.2.1, wordPos := out.2.2.2 } := by
      rw [State.emitted, kept]
      exact emit _ rfl rfl
    have same : out.2.2.1 = s.reports := same
    rw [stays, emitted, same, offerAndDepart_of_stays]
    exact (State.offerEvents_with_line ..).symm
  · have emitted : (s.received samples run).emitted word
        = { s.received samples run with cueOut := out.2.1, wordPos := s.wordPos + 1 } := by
      rw [State.emitted, kept]
      exact emit _ rfl rfl
    have gone : out.2.2.1 = s.reports.tail := gone
    have first : out.2.2.2 = 0 := first
    have nothing : missed = [] := room.resolve_right fun same => waits (eq_nil_of_tail_eq_self (gone.symm.trans same))
    rw [ends, emitted, gone, first, nothing, offerAndDepart_of_leaves]
    rfl

/-- Settles O42: every lane takes one step, the mix follows from the lanes stepped, and the arbiter, the Trigger Queue and
the report in emission each do their part. -/
theorem arrivalRunsTheSplices : Obligations.ArrivalRunsTheSplices := by
  unfold Obligations.ArrivalRunsTheSplices
  intro s line samples word run f hs locked deadline units due runs takes orders out missed room
  have runsOn : ∀ i, (s.lane i).runsOn := by
    intro i
    rcases hs.lanes.1 i with idle | ⟨r, hr, -⟩
    · rw [idle]
      exact Lane.idle_runsOn
    · exact ⟨(runs i r hr).1, fun _ => (runs i r hr).2.ne⟩
  have mix := congrArg Vector.ofFn (funext (formSlot_atNextFrame s samples))
  exact exec_frameArrival_runs_on hs locked takes deadline units due runsOn orders mix room

end Sys2Proof.Machine
end

section
/-! A splice that an arrival ends: what is left of it (R29, R30, R41, R42). -/

namespace Sys2Proof.Machine

theorem State.lanes_ext {s t : State} (h : ∀ i, t.lane i = s.lane i) : t.lanes = s.lanes :=
  Vector.ext fun i hi => h ⟨i, hi⟩

/-- Phases that stand already are set to what they are (R55). -/
theorem setPhases_eq_self {s : State} (h : ∀ i r, (s.lane i).copy = some r →
    (s.lane i).phase = phaseAt r (s.lane i).total (s.lane i).k) : setPhases s = s := by
  have lanes : (setPhases s).lanes = s.lanes := State.lanes_ext fun i => by
    cases hr : (s.lane i).copy with
    | none => exact setPhases_lane_of_none hr
    | some r => rw [setPhases_lane_of_some hr, ← h i r hr]
  exact congrArg (fun lanes => { s with lanes := lanes }) lanes

/-- Where only lane `i` is busy, its phase is the one that is set (R55). -/
theorem setPhases_setLane {s : State} {i : Fin 8} (others : ∀ j, j ≠ i → s.lane j = Lane.idle) {l : Lane} {r : Record}
    (hr : l.copy = some r) : setPhases (s.setLane i l) = s.setLane i { l with phase := phaseAt r l.total l.k } := by
  have own : (s.setLane i l).lane i = l := (State.lane_setLane ..).trans (if_pos rfl)
  have lanes : (setPhases (s.setLane i l)).lanes = (s.setLane i { l with phase := phaseAt r l.total l.k }).lanes := by
    refine State.lanes_ext fun j => ?_
    by_cases hj : j = i
    · rw [hj, setPhases_lane_of_some (own.symm ▸ hr), own, State.lane_setLane, if_pos rfl]
    · have kept : (s.setLane i l).lane j = Lane.idle := ((State.lane_setLane ..).trans (if_neg hj)).trans (others j hj)
      rw [setPhases_lane_of_none (kept.symm ▸ rfl), kept, State.lane_setLane, if_neg hj, others j hj]
  exact congrArg (fun lanes => { s with lanes := lanes }) lanes

theorem setPhases_freeDoomed (s : State) : setPhases s.freeDoomed.1
    = { setPhases s with clips := s.freeDoomed.1.clips, freeBlocks := s.freeDoomed.1.freeBlocks } := by
  rw [State.freeDoomed_frame]
  rfl

section ending
variable {e t : State} {i : Fin 8} {r : Record} {w : LaneWork} {trigger : List Event}

/-- Where lane work has moved only lanes, slots and uses, and left the phases right, `t` is that work with its clips freed,
the Trigger Unit's part done and the reports of the arrival offered. -/
def State.ArrivalLeaves (e t : State) (w : LaneWork) (trigger : List Event) : Prop :=
  t = { setPhases w.st.freeDoomed.1 with
      triggers := t.triggers, cueOut := t.cueOut, reports := t.reports, lost := t.lost, eventSeq := t.eventSeq
      lineOut := t.lineOut, choices := t.choices }
    ∧ t.reportsAfter e (w.reports ++ w.st.freeDoomed.2 ++ trigger)

/-- The station before the lanes' work, the line and the count of choices as the arrival leaves them. -/
def State.linedAs (e t : State) : State := { e with lineOut := t.lineOut, choices := t.choices }

/-- The claims of an ended record, and those of the record `taken` that follows it, as the end of the arrival has them. -/
theorem State.ArrivalLeaves.moved {taken : List Voice} (h : e.ArrivalLeaves t w trigger) (hc : e.canonical)
    (hu : e.usesSound) (hr : (e.lane i).copy = some r)
    (hw : w.st = { e with lanes := w.st.lanes, slots := w.st.slots, clips := w.st.clips })
    (hm : e.UsesMoved w.st r taken) (hd : ∀ v ∈ taken, (e.clip v.clip.val).state ≠ .doomed)
    (hp : setPhases w.st = w.st) :
    t.lanes = w.st.lanes ∧ t.slots = w.st.slots
      ∧ (∀ c, t.clip c = { e.clipGivenBack r c with
          uses := (e.clipGivenBack r c).uses + taken.countP fun v => v.clip.val == c })
      ∧ t.freeBlocks = e.freeBlocks ++ (e.clipsFreedBy r).flatMap (fun c => (e.clip c).chain)
      ∧ t.reportsAfter (e.linedAs t) (w.reports ++ (e.clipsFreedBy r).map Event.clipFreed ++ trigger)
      ∧ t = { e.linedAs t with
          lanes := t.lanes, slots := t.slots, clips := t.clips, freeBlocks := t.freeBlocks, reports := t.reports
          lost := t.lost, eventSeq := t.eventSeq, triggers := t.triggers, cueOut := t.cueOut } := by
  obtain ⟨frame, reports⟩ := h
  have sorted := hc.2.2.1
  have clips := hm.clip_freeDoomed hd
  have blocks := hm.freeBlocks_freeDoomed sorted hu hr hd
  have events : w.st.freeDoomed.2 = (e.clipsFreedBy r).map Event.clipFreed :=
    congrArg (List.map Event.clipFreed) (hm.doomedUnused sorted hu hr hd)
  rw [setPhases_freeDoomed, hp] at frame
  have list : w.st.freeBlocks = e.freeBlocks := by rw [hw]
  rw [events] at reports
  have lanes : t.lanes = w.st.lanes := by rw [frame]
  have slots : t.slots = w.st.slots := by rw [frame]
  have directory : t.clips = w.st.freeDoomed.1.clips := by rw [frame]
  have free : t.freeBlocks = w.st.freeDoomed.1.freeBlocks := by rw [frame]
  refine ⟨lanes, slots, fun c => (State.clip_congr directory c).trans (clips c), by rw [free, blocks, list],
    State.reportsAfter.of_same reports ⟨rfl, rfl, rfl⟩, frame.trans ?_⟩
  rw [lanes, slots, directory, free, hw]
  rfl

variable (hc : e.canonical) (hu : e.usesSound) (hr : (e.lane i).copy = some r)
  (returned : e.ClaimsReturned w.st i r e.frameCount) (others : ∀ j, j ≠ i → e.lane j = Lane.idle)
include hc hu hr returned others

/-- Claims given back, the lane IDLE, every other lane IDLE: at the end of the arrival the splice is over. -/
theorem State.ArrivalLeaves.spliceOver (h : e.ArrivalLeaves t (w.setLane i Lane.idle) trigger) :
    (e.linedAs t).spliceOver t i r w.reports trigger := by
  obtain ⟨hframe, hmoved, hlanes, hslots⟩ := returned
  have frame : (w.setLane i Lane.idle).st = { e with
      lanes := (w.setLane i Lane.idle).st.lanes, slots := (w.setLane i Lane.idle).st.slots
      clips := (w.setLane i Lane.idle).st.clips } := by
    simp only [LaneWork.setLane, State.setLane]
    rw [hframe]
  have idle : ∀ j, (w.setLane i Lane.idle).st.lane j = if j = i then Lane.idle else e.lane j := by
    intro j
    rw [LaneWork.setLane_lane]
    split
    · rfl
    · rename_i hj; exact hlanes j hj
  have phases : setPhases (w.setLane i Lane.idle).st = (w.setLane i Lane.idle).st := by
    refine setPhases_eq_self fun j r' hr' => ?_
    rw [idle] at hr'
    split at hr'
    · cases hr'
    · rename_i hj; rw [others j hj] at hr'; cases hr'
  obtain ⟨lanes, slots, clips, blocks, reports, rest⟩ := h.moved hc hu hr frame hmoved nofun phases
  refine ⟨fun j => (State.lane_congr lanes j).trans (idle j), fun j => ?_, clips, blocks, reports, rest⟩
  rw [show _ = w.st.slots from slots]
  exact hslots j

/-- Claims given back and another record loaded at once: at the end of the arrival the splice is followed. -/
theorem State.ArrivalLeaves.spliceFollowed {index : Fin 256} {next : Record} (hl : loadTest e i index = .ok next)
    (h : e.ArrivalLeaves t (commitLoad i index next w) trigger) :
    (e.linedAs t).spliceFollowed t i r index next
      (w.reports ++ if next.reportStart then [.spliceStarted i index next.tag] else []) trigger := by
  have length := returned.effectiveLength_eq next
  obtain ⟨hframe, ⟨hsorted, hclip⟩, hlanes, hslots⟩ := returned
  obtain ⟨hsorted', hlane', hslots', hclip', hreports, -⟩ := commitLoad_spec hsorted i index next
  have frame : (commitLoad i index next w).st = { e with
      lanes := (commitLoad i index next w).st.lanes, slots := (commitLoad i index next w).st.slots
      clips := (commitLoad i index next w).st.clips } := by
    rw [(LaneWork.follows_commitLoad i index next w).1, hframe]
  have moved : e.UsesMoved (commitLoad i index next w).st r next.voices := by
    refine ⟨hsorted', fun c => ?_⟩
    rw [hclip' c, hclip c]
    rfl
  obtain ⟨-, hready, -, -⟩ := loadTest_ok hl
  have playable : ∀ v ∈ next.voices, (e.clip v.clip.val).state ≠ .doomed := by
    intro v hv
    rw [hready v hv]
    nofun
  have loaded : ∀ j, (commitLoad i index next w).st.lane j
      = if j = i then Lane.loaded index next (effectiveLength e next) else e.lane j := by
    intro j
    rw [hlane' j, length]
    split
    · rfl
    · rename_i hj; exact hlanes j hj
  have phases : setPhases (commitLoad i index next w).st = (commitLoad i index next w).st := by
    refine setPhases_eq_self fun j r' hr' => ?_
    rw [loaded] at hr' ⊢
    split at hr'
    · rename_i hj
      rw [if_pos hj]
      obtain rfl := Option.some.inj hr'
      rfl
    · rename_i hj; rw [others j hj] at hr'; cases hr'
  obtain ⟨lanes, slots, clips, blocks, reports, rest⟩ := h.moved hc hu hr frame moved playable phases
  refine ⟨fun j => (State.lane_congr lanes j).trans (loaded j), fun j => ?_, clips, blocks, hreports ▸ reports, rest⟩
  rw [show _ = (commitLoad i index next w).st.slots from slots, hslots' j]
  simp only [Record.mem_slotSet]
  rw [hslots j]
  rfl

end ending

end Sys2Proof.Machine
end

section
/-! The steps of one lane at an arrival, in the numbers of R23, R24, R41 and R57. -/

namespace Sys2Proof.Machine

/-! The context that an arrival leaves to the test of the end -/

/-- The arrival applies a RELEASE that gives the record its end mark (R41). -/
def Lane.marksHere (l : Lane) : Bool := decide (l.waiting = some .release ∧ l.mark = .unmarked)

/-- The total after the arrival's waiting RELEASE (R41, R57). -/
def Lane.totalHere (r : Record) (l : Lane) : Nat :=
  if l.marksHere = true ∧ l.k + 1 < l.total then
    if r.voices = [] ∨ r.rOut.val = 0 then l.k + 1
    else min l.total (l.k + 1 + fadeIndex r l.total (l.k + 1) * r.rOut.val + 1)
  else l.total

/-- The context of a lane that runs `r` once an arrival has advanced it and applied a waiting RELEASE (R23, R24, R41). -/
def Lane.arrived (r : Record) (l : Lane) : Lane :=
  { l with
    k := l.k + 1
    total := l.totalHere r
    mark := if l.marksHere then .released else l.mark
    waiting := none
    pending := if l.waiting = none then l.pending else none }

/-- The report of a pending trigger that the arrival's RELEASE discards (R33). -/
def Lane.supersededHere (i : Fin 8) (l : Lane) : List Event :=
  match l.waiting, l.pending with
  | some .release, some p => [.superseded i p.record]
  | _, _ => []

theorem recomputedTotal_eq (r : Record) (total c : Nat) : recomputedTotal r total c
    = if r.voices = [] ∨ r.rOut.val = 0 then c else min total (c + fadeIndex r total c * r.rOut.val + 1) := by
  by_cases hv : r.voices = []
  · simp [recomputedTotal, Record.isPause, hv]
  · by_cases hout : r.rOut.val = 0
    · simp [recomputedTotal, hout]
    · rw [if_neg (not_or.mpr ⟨hv, hout⟩), recomputedTotal_of_falls hv hout]

/-- A lane that has not reached its total does not step past it. -/
theorem Lane.succ_k_le_totalHere {l : Lane} (h : l.k < l.total) (r : Record) : l.k + 1 ≤ l.totalHere r := by
  unfold Lane.totalHere
  split
  · split
    · exact le_rfl
    · omega
  · exact h

theorem Lane.arrived_of_no_order {l : Lane} (hb : l.busy = true) (hw : l.waiting = none) (r : Record) :
    l.arrived r = l.stepped := by
  have unmarks : l.marksHere = false := by simp [Lane.marksHere, hw]
  rw [Lane.stepped_of_busy hb]
  simp [Lane.arrived, Lane.totalHere, unmarks, hw]

theorem Lane.arrived_of_release {l : Lane} (hb : l.busy = true) (hw : l.waiting = some .release) (r : Record) :
    l.arrived r = l.stepped.afterRelease r := by
  have marks : l.marksHere = true ↔ l.mark = .unmarked := by simp [Lane.marksHere, hw]
  rw [Lane.stepped_of_busy hb]
  simp [Lane.arrived, Lane.afterRelease, Lane.totalHere, recomputedTotal_eq, marks, hw]

/-- Up to the test of the end an arrival leaves `Lane.arrived`, when no ABORT waits (R23). -/
theorem laneSteps_of_copy {i : Fin 8} {w : LaneWork} {r : Record} (hr : (w.st.lane i).copy = some r)
    (hb : (w.st.lane i).busy = true) (ha : (w.st.lane i).waiting ≠ some .abort) :
    laneSteps [] i w = endIfDue i ((w.setLane i ((w.st.lane i).arrived r)).report ((w.st.lane i).supersededHere i)) := by
  rw [laneSteps_nil]
  cases hw : (w.st.lane i).waiting with
  | none =>
    have none : (w.st.lane i).supersededHere i = [] := by simp only [Lane.supersededHere, hw]
    rw [Lane.arrived_of_no_order hb hw, none, applyWaiting_of_none]
    · rw [LaneWork.report, List.append_nil]
    · rw [LaneWork.setLane_lane_self, Lane.stepped_waiting, hw]
  | some order =>
    cases order with
    | abort => exact absurd hw ha
    | release =>
      have own := w.setLane_lane_self i (w.st.lane i).stepped
      have copy : ((w.setLane i (w.st.lane i).stepped).st.lane i).copy = some r := by
        rw [own, Lane.stepped_of_busy hb]
        exact hr
      have waits : ((w.setLane i (w.st.lane i).stepped).st.lane i).waiting = some .release := by
        rw [own, Lane.stepped_waiting, hw]
      have shown : supersededReport i (w.st.lane i).stepped = (w.st.lane i).supersededHere i := by
        rw [Lane.stepped_of_busy hb]
        simp only [supersededReport, Lane.supersededHere, hw]
        cases (w.st.lane i).pending <;> rfl
      rw [Lane.arrived_of_release hb hw, ← shown]
      simp only [applyWaiting, waits, applyReleaseOrder_of_copy copy]
      rw [own, LaneWork.setLane_setLane]

/-- A waiting ABORT ends the record at the arrival's k, whatever its total (R42). -/
theorem laneSteps_of_abort {i : Fin 8} {w : LaneWork} {r : Record} (hr : (w.st.lane i).copy = some r)
    (hb : (w.st.lane i).busy = true) (hw : (w.st.lane i).waiting = some .abort) :
    laneSteps [] i w = ((w.setLane i (w.st.lane i).stepped).stopped i r .aborted).setLane i Lane.idle := by
  have own := w.setLane_lane_self i (w.st.lane i).stepped
  have copy : ((w.setLane i (w.st.lane i).stepped).st.lane i).copy = some r := by
    rw [own, Lane.stepped_of_busy hb]
    exact hr
  have waits : ((w.setLane i (w.st.lane i).stepped).st.lane i).waiting = some .abort := by
    rw [own, Lane.stepped_waiting, hw]
  rw [laneSteps_nil]
  simp only [applyWaiting, waits, applyAbortOrder_of_copy copy]
  simp only [endIfDue, LaneWork.setLane_lane_self]
  rfl

end Sys2Proof.Machine
end

section
/-! A splice runs its total: the arrival of its lane (R23, R24, R29, R41, R42). -/

namespace Sys2Proof.Machine

/-! What an arrival leaves, whatever its lanes did -/

/-- The station that has counted an arrival in and given its outgoing slot away (R193). -/
def State.atArrival (s : State) (samples : SampleSet) (run : Nat) (word : Option ControlWord) : State :=
  { s.received samples run with
    cueOut := (s.slotOutcome (s.frameCount + 1) word).2.1
    wordPos := (s.slotOutcome (s.frameCount + 1) word).2.2.2 }

/-- A station with its reports offered, the offer being all that has happened to it. -/
theorem State.eq_offerEvents {s t : State} {es : List Event}
    (h : t = { s with reports := t.reports, lost := t.lost, eventSeq := t.eventSeq }) (hr : t.reportsAfter s es) :
    t = s.offerEvents es := by
  obtain ⟨reports, lost, seq⟩ := hr
  rw [h, State.offerEvents_frame, reports, lost, seq]

/-- The sixteen samples of an arrival are the mix of the statements (R60). -/
theorem mixFrame_eq_mixOf (s : State) (samples : SampleSet) : mixFrame s samples = s.mixOf samples := rfl

/-- The mix reads the Slot Table, the lanes, the fade law and the sample memory, nothing else (R60, R61). -/
theorem mixFrame_congr {s t : State} (hslots : t.slots = s.slots) (hlanes : t.lanes = s.lanes) (hlaw : t.law = s.law)
    (hclips : t.clips = s.clips) (hmemory : t.memory = s.memory) (samples : SampleSet) :
    mixFrame t samples = mixFrame s samples := by
  cases s
  cases t
  cases hslots
  cases hlanes
  cases hlaw
  cases hclips
  cases hmemory
  rfl

theorem State.ArrivalLeaves.mixOf {e t : State} {w : LaneWork} {trigger : List Event} (h : e.ArrivalLeaves t w trigger)
    (samples : SampleSet) : t.mixOf samples = mixFrame (setPhases w.st.freeDoomed.1) samples := by
  rw [← mixFrame_eq_mixOf]
  obtain ⟨frame, -⟩ := h
  apply mixFrame_congr <;> rw [frame]

theorem State.arrivalDone_sameReports (s : State) (word : Option ControlWord) :
    (s.emitted word).SameReports (s.arrivalDone word) := by
  rw [State.arrivalDone, State.arrivalPlaced_frame, State.arrivalMixed_frame]
  exact ⟨rfl, rfl, rfl⟩

section arrival
variable {s : State} {line : LineFrame} {samples : SampleSet} {word : Option ControlWord} {run : Nat}

/-- FRAME_ARRIVAL with nothing due, no unit at work and no report departing: the station `e` of the arrival, the lanes' work
on it, and what the Trigger Unit and the reports make of that. -/
theorem exec_frameArrival_quiet (hs : s.Sound) (hl : s.lock = .locked) (ht : s.takes line samples word run)
    (ha : ∀ a, s.assembly = some a → s.frameCount + 1 ≠ a.start + 2048) (hu : ∀ u, (s.unit u).state ≠ .recording)
    (hq : ∀ e ∈ s.triggers, e.fallsDue (s.frameCount + 1) = false) (hw : ∀ w, word = some w → ¬forOrderUnit s.station w)
    (ho : (s.slotOutcome (s.frameCount + 1) word).2.2.1 = s.reports)
    (hc : (lanesRow [] (s.atArrival samples run word)).endCues.length ≤ 1) :
    let e := s.atArrival samples run word
    let w := lanesRow [] e
    ∃ t u missed dropped, exec (.frameArrival line) s = .next t
      ∧ e.endCueHandled u (s.frameCount + 1) w.endCues missed dropped ∧ t.cueOut = u.cueOut
      ∧ t.triggers = queueHearing (s.frameCount + 1) (s.heardCue word) u.triggers
      ∧ t.lineOut = composeFrame (t.mixOf samples) (s.slotOutcome (s.frameCount + 1) word).1
      ∧ t.choices = s.choices + 1
      ∧ e.ArrivalLeaves t w (missed ++ queueMissing (s.heardCue word) u.triggers ++ dropped) := by
  intro e w
  obtain ⟨ran, emitted⟩ := exec_frameArrival_of_no_departure hs.triggers hs.reports hl ht
    (State.unitsRest_of_nothing_due (s := s.received samples run) hu hq) ha hw ho
  have kept : (s.received samples run).dropDue = s.received samples run := State.dropDue_of_nothing hq
  have start : (s.received samples run).emitted word = e := by
    rw [emitted, kept]
    rfl
  have work : (s.received samples run).arrivalLanes word = w := by
    rw [State.arrivalLanes_of_nothing_due hq, start]
  have mixed : (s.received samples run).arrivalMixed word = setPhases w.st.freeDoomed.1 := by
    rw [State.arrivalMixed, work]
  have handled := endCueHandled_arrival (s := s.received samples run) hs.triggers word (work ▸ hc)
  rw [work, start] at handled
  have placed := (s.received samples run).arrivalPlaced_frame word
  rw [mixed] at placed
  have same := (s.received samples run).arrivalDone_sameReports word
  rw [start] at same
  have events : (s.received samples run).arrivalEvents word = w.reports ++ w.st.freeDoomed.2
      ++ ((s.received samples run).arrivalMissed word
        ++ queueMissing (s.heardCue word) ((s.received samples run).arrivalPlaced word).triggers
        ++ (s.received samples run).arrivalDropped word) := by
    rw [State.arrivalEvents, work, State.heardCue_received]
  have leaves : e.ArrivalLeaves { ((s.received samples run).arrivalDone word).offerEvents
      ((s.received samples run).arrivalEvents word) with
        lineOut := composeFrame (mixFrame ((s.received samples run).arrivalMixed word) samples)
          (s.slotOutcome (s.frameCount + 1) word).1
        choices := s.choices + 1 } w ((s.received samples run).arrivalMissed word
        ++ queueMissing (s.heardCue word) ((s.received samples run).arrivalPlaced word).triggers
        ++ (s.received samples run).arrivalDropped word) := by
    refine ⟨?_, events ▸ same.offerEvents _⟩
    rw [State.offerEvents_frame, State.arrivalDone, placed]
  have triggers : ((s.received samples run).arrivalDone word).triggers = queueHearing (s.frameCount + 1) (s.heardCue word)
      ((s.received samples run).arrivalPlaced word).triggers := by
    rw [← State.heardCue_received s samples run word]
    rfl
  refine ⟨_, _, _, _, ran, handled, ?_, ?_, ?_, rfl, leaves⟩
  · exact State.offerEvents_cueOut ..
  · exact (State.offerEvents_triggers ..).trans triggers
  · rw [leaves.mixOf samples, mixed]

end arrival

end Sys2Proof.Machine
end

section
/-! A splice runs its total: the one busy lane at an arrival, and what its end leaves (R23, R24, R29, R30, R41, R42). -/

namespace Sys2Proof.Machine

/-- The record ends at this arrival: an ABORT waits, or the counter meets the total (R29, R42). -/
def Lane.endsHere (r : Record) (l : Lane) : Prop := l.waiting = some .abort ∨ l.k + 1 = l.totalHere r

/-- The SPLICE ENDED reason of an end at this arrival (R29, R42). -/
def Lane.reasonHere (r : Record) (l : Lane) : EndReason :=
  if l.waiting = some .abort then .aborted else (l.arrived r).mark.reason

/-- The end cue handed on by this arrival (R29, R31, R42). -/
def Lane.cuesHere (r : Record) (l : Lane) : List EndCue :=
  if l.k + 1 < l.totalHere r ∨ l.waiting = some .abort ∨ (l.arrived r).mark = .cut then [] else r.endCue.toList

/-- What follows an end at this arrival: a pending record or, under no end mark, the linked one (R30). -/
def Lane.followsHere (r : Record) (l : Lane) : Option (Fin 256) :=
  match l.waiting, l.pending with
  | some _, _ => none
  | none, some p => some p.record
  | none, none => if (l.arrived r).mark = .unmarked then r.next else none

/-- What follows an end discards no pending trigger: no RELEASE has been applied (R30, R33). -/
theorem Lane.supersededHere_of_follows {l : Lane} {r : Record} {index : Fin 256} (h : l.followsHere r = some index)
    (i : Fin 8) : l.supersededHere i = [] := by
  cases hw : l.waiting with
  | none => simp only [Lane.supersededHere, hw]
  | some order => simp [Lane.followsHere, hw] at h

/-- The lanes' work when what follows an end, if anything, is loaded (R29, R30). -/
def LaneWork.followedBy (i : Fin 8) (follows : Option (Fin 256)) (w : LaneWork) : LaneWork :=
  match follows with
  | none => w.setLane i Lane.idle
  | some index => loadRecord i index w

theorem LaneWork.followedBy_endCues (i : Fin 8) (follows : Option (Fin 256)) (w : LaneWork) :
    (w.followedBy i follows).endCues = w.endCues := by
  cases follows with
  | none => rfl
  | some index =>
    rcases loadRecord_cases i index w with ⟨r, -, h⟩ | ⟨reason, -, h⟩ <;> rw [LaneWork.followedBy, h]
    · rfl
    · rfl

/-- The lanes' work up to the test of the end, when no ABORT waits at the one busy lane (R23). -/
def State.arrivedWork (e : State) (i : Fin 8) (r : Record) : LaneWork :=
  ((LaneWork.start e).setLane i ((e.lane i).arrived r)).report ((e.lane i).supersededHere i)

theorem State.arrivedWork_lane (e : State) (i : Fin 8) (r : Record) :
    (e.arrivedWork i r).st.lane i = (e.lane i).arrived r := LaneWork.setLane_lane_self (LaneWork.start e) i _

/-- The work of an ABORT up to what follows, at the counter of this arrival (R42). -/
def State.abortedWork (e : State) (i : Fin 8) (r : Record) : LaneWork :=
  ((LaneWork.start e).setLane i (e.lane i).stepped).stopped i r .aborted

theorem Lane.arrived_mark_ne_unmarked {l : Lane} (hw : l.waiting = some .release) (r : Record) :
    (l.arrived r).mark ≠ .unmarked := by
  cases hm : l.mark <;> simp [Lane.arrived, Lane.marksHere, hw, hm]

/-- The end of the record of a lane that no ABORT waits at, and the load of what follows (R29, R30). -/
theorem endRecord_arrivedWork {e : State} {i : Fin 8} {r : Record} (hr : (e.lane i).copy = some r)
    (ha : (e.lane i).waiting ≠ some .abort) : endRecord i (e.arrivedWork i r)
    = ((e.arrivedWork i r).ended i r).followedBy i ((e.lane i).followsHere r) := by
  have own := e.arrivedWork_lane i r
  have copy : ((e.arrivedWork i r).st.lane i).copy = some r := by rw [own]; exact hr
  have over' : ((e.arrivedWork i r).st.lane i).pending = none →
      ((e.arrivedWork i r).st.lane i).mark ≠ .unmarked ∨ r.next = none →
      (e.lane i).followsHere r = none →
      endRecord i (e.arrivedWork i r) = ((e.arrivedWork i r).ended i r).followedBy i ((e.lane i).followsHere r) :=
    fun hp hn hf => hf.symm ▸ endRecord_of_nothing_follows copy hp hn
  have followed : ∀ index, (((e.arrivedWork i r).st.lane i).pending.map PendingTrigger.record = some index
        ∨ ((e.arrivedWork i r).st.lane i).pending = none ∧ ((e.arrivedWork i r).st.lane i).mark = .unmarked
          ∧ r.next = some index) →
      (e.lane i).followsHere r = some index →
      endRecord i (e.arrivedWork i r) = ((e.arrivedWork i r).ended i r).followedBy i ((e.lane i).followsHere r) :=
    fun index hn hf => hf.symm ▸ endRecord_of_follows copy hn
  rw [own] at over' followed
  cases hw : (e.lane i).waiting with
  | some order =>
    cases order with
    | abort => exact absurd hw ha
    | release =>
      refine over' (if_neg (by rw [hw]; nofun)) (.inl ?_) (by simp only [Lane.followsHere, hw])
      exact Lane.arrived_mark_ne_unmarked hw r
  | none =>
    have pending : ((e.lane i).arrived r).pending = (e.lane i).pending := if_pos hw
    have mark : ((e.lane i).arrived r).mark = (e.lane i).mark := if_neg (by simp [Lane.marksHere, hw])
    rw [pending, mark] at over' followed
    cases hp : (e.lane i).pending with
    | some p => exact followed p.record (.inl (by rw [hp]; rfl)) (by simp only [Lane.followsHere, hw, hp])
    | none =>
      by_cases hm : (e.lane i).mark = .unmarked
      · cases hn : r.next with
        | none => exact over' hp (.inr hn) (by simp only [Lane.followsHere, hw, hp, mark, hm, hn, if_true])
        | some index => exact followed index (.inr ⟨hp, hm, hn⟩) (by simp only [Lane.followsHere, hw, hp, mark, hm, hn, if_true])
      · exact over' hp (.inl hm) (by simp only [Lane.followsHere, hw, hp, mark, if_neg hm])

section one
variable {e : State} {i : Fin 8} {r : Record} (hl : e.lanesSound) (hr : (e.lane i).copy = some r)
include hl hr

theorem State.lanesSound.succ_k_le : (e.lane i).k + 1 ≤ (e.lane i).totalHere r :=
  Lane.succ_k_le_totalHere ((hl.1 i).k_lt_total hr) r

variable (others : ∀ j, j ≠ i → e.lane j = Lane.idle)
include others

theorem lanesRow_of_no_abort (ha : (e.lane i).waiting ≠ some .abort) :
    lanesRow [] e = endIfDue i (e.arrivedWork i r) :=
  (lanesRow_of_one others).trans (laneSteps_of_copy (w := LaneWork.start e) hr ((hl.1 i).busy hr) ha)

/-- The one busy lane runs on: it has advanced, and its RELEASE has been applied. -/
theorem lanesRow_of_not_ending (hn : ¬(e.lane i).endsHere r) : lanesRow [] e = e.arrivedWork i r := by
  obtain ⟨ha, hk⟩ := not_or.mp hn
  rw [lanesRow_of_no_abort hl hr others ha, endIfDue_of_ne]
  rw [State.arrivedWork_lane]
  exact hk

/-- The one busy lane ends its record: claims given back, the reports and the end cue of the end, and then what follows. -/
theorem lanesRow_of_ending (hc : e.canonical) (he : (e.lane i).endsHere r) :
    ∃ v : LaneWork, e.ClaimsReturned v.st i r e.frameCount
      ∧ v.reports = (e.lane i).supersededHere i ++ endReport i (e.lane i) r ((e.lane i).reasonHere r)
      ∧ v.endCues = (e.lane i).cuesHere r
      ∧ lanesRow [] e = v.followedBy i ((e.lane i).followsHere r) := by
  have busy := (hl.1 i).busy hr
  by_cases ha : (e.lane i).waiting = some .abort
  · have stepped : (e.lane i).stepped = { e.lane i with k := (e.lane i).k + 1 } := Lane.stepped_of_busy busy
    have nothing : (e.lane i).followsHere r = none := by simp only [Lane.followsHere, ha]
    have none : (e.lane i).supersededHere i = [] := by simp only [Lane.supersededHere, ha]
    have reason : (e.lane i).reasonHere r = .aborted := if_pos ha
    refine ⟨e.abortedWork i r, (e.laneAdvanced_setLane i (by rw [stepped])).releaseClaims hc hl r, ?_,
      (if_pos (.inr (.inl ha))).symm, ?_⟩
    · rw [none, reason]
      simp only [State.abortedWork, LaneWork.stopped, LaneWork.setLane_lane_self, stepped]
      rfl
    · rw [nothing, lanesRow_of_one others]
      exact laneSteps_of_abort hr busy ha
  · have hk : (e.lane i).k + 1 = (e.lane i).totalHere r := he.resolve_left ha
    have own := e.arrivedWork_lane i r
    have reason : (e.lane i).reasonHere r = ((e.lane i).arrived r).mark.reason := if_neg ha
    have cues : (e.lane i).cuesHere r = handedEndCue ((e.lane i).arrived r) r := by
      simp [Lane.cuesHere, handedEndCue, ha, hk]
    refine ⟨(e.arrivedWork i r).ended i r,
      (e.laneAdvanced_setLane i (l := (e.lane i).arrived r) rfl).releaseClaims hc hl r, ?_, ?_, ?_⟩
    · rw [reason]
      simp only [LaneWork.ended, own]
      rfl
    · rw [cues]
      simp only [LaneWork.ended, own]
      rfl
    · rw [lanesRow_of_no_abort hl hr others ha, endIfDue_of_eq (by rw [own]; exact busy) (by rw [own]; exact hk),
        endRecord_arrivedWork hr ha]

/-- The end cues of the row are those of the one busy lane. -/
theorem lanesRow_endCues (hc : e.canonical) : (lanesRow [] e).endCues = (e.lane i).cuesHere r := by
  by_cases he : (e.lane i).endsHere r
  · obtain ⟨v, -, -, cues, row⟩ := lanesRow_of_ending hl hr others hc he
    rw [row, LaneWork.followedBy_endCues, cues]
  · have below : (e.lane i).k + 1 < (e.lane i).totalHere r := (hl.succ_k_le hr).lt_of_ne (not_or.mp he).2
    have none : (e.lane i).cuesHere r = [] := if_pos (.inl below)
    rw [lanesRow_of_not_ending hl hr others he, none]
    rfl

end one

theorem Lane.length_cuesHere_le (r : Record) (l : Lane) : (l.cuesHere r).length ≤ 1 := by
  unfold Lane.cuesHere
  split
  · exact Nat.zero_le 1
  · cases r.endCue <;> simp

/-- An arrival that lets the one busy lane run on: its context, its lists and its reports. -/
theorem State.ArrivalLeaves.runs_on {e t : State} {i : Fin 8} {r : Record} {trigger : List Event}
    (h : e.ArrivalLeaves t (e.arrivedWork i r) trigger) (hr : (e.lane i).copy = some r)
    (others : ∀ j, j ≠ i → e.lane j = Lane.idle) (hd : e.doomedUnused = []) (hc : t.cueOut = e.cueOut) :
    t = ({ e.linedAs t with
      triggers := t.triggers
      lanes := e.lanes.set i { (e.lane i).arrived r with
        phase := phaseAt r ((e.lane i).totalHere r) ((e.lane i).k + 1) } } : State).offerEvents
          ((e.lane i).supersededHere i ++ trigger) := by
  obtain ⟨frame, reports⟩ := h
  have freed : (e.arrivedWork i r).st.freeDoomed = ((e.arrivedWork i r).st, []) := State.freeDoomed_of_nothing hd
  have phases : setPhases (e.arrivedWork i r).st = e.setLane i { (e.lane i).arrived r with
      phase := phaseAt r ((e.lane i).totalHere r) ((e.lane i).k + 1) } := setPhases_setLane others (l := (e.lane i).arrived r) hr
  rw [freed] at frame reports
  dsimp only at frame
  rw [phases, hc] at frame
  rw [List.append_nil] at reports
  exact State.eq_offerEvents frame (State.reportsAfter.of_same reports ⟨rfl, rfl, rfl⟩)

end Sys2Proof.Machine
end

section
/-! The statement that a splice runs its total. -/

namespace Sys2Proof.Machine

/-- Settles O47: the steps of a lane iterated, and the arrival of the one busy lane, which runs on, is over or is followed. -/
theorem spliceRunsItsTotal : Obligations.SpliceRunsItsTotal := by
  unfold Obligations.SpliceRunsItsTotal
  refine ⟨?_, ?_⟩
  · intro w i n l hphase hwaiting
    have busy : l.busy = true := (Lane.busy_iff l).mpr hphase
    exact ⟨iterate_laneSteps busy hwaiting n, iterate_laneSteps_succ busy hwaiting n⟩
  · intro s line i r samples word run f hs locked deadline units due hr others takes orders out stays l k marks mark total atEnd
      superseded reason ended cues follows
    let e := s.atArrival samples run word
    have canonical : e.canonical := hs.canonical
    have sound : e.lanesSound := hs.lanes
    have counted : e.usesSound := hs.uses
    have own : (e.lane i).copy = some r := hr
    have alone : ∀ j, j ≠ i → e.lane j = Lane.idle := others
    have nothing : e.doomedUnused = [] := hs.doomedUnused rfl
    have handed : (lanesRow [] e).endCues = l.cuesHere r := lanesRow_endCues sound own alone canonical
    obtain ⟨t, u, missed, dropped, ran, placed, cueOut, triggers, lineOut, choices, leaves⟩ :=
      exec_frameArrival_quiet hs locked takes deadline units due orders stays (handed ▸ l.length_cuesHere_le r)
    have sameEnd : endReport i l r (l.reasonHere r) = ended := rfl
    have sameFollow : l.followsHere r = follows := rfl
    have sameSuperseded : l.supersededHere i = superseded := rfl
    refine ⟨t, u, missed, dropped, ran, ?_⟩
    intro base raised
    have lined : e.linedAs t = base := by
      show { e with lineOut := t.lineOut, choices := t.choices } = base
      rw [choices]
      rfl
    rw [handed] at placed
    refine ⟨placed, cueOut, triggers, lineOut, fun hn => ?_, fun he hf => ?_, fun index he hf => ?_⟩
    · have below : k < total := (sound.succ_k_le own).lt_of_ne (not_or.mp hn).2
      have list : t.cueOut = e.cueOut := cueOut.trans (placed.1 (if_pos (.inl below))).2.1
      rw [lanesRow_of_not_ending sound own alone hn] at leaves
      have outcome := leaves.runs_on own alone nothing list
      rw [show e.linedAs t = base from lined] at outcome
      exact sameSuperseded ▸ outcome
    · obtain ⟨v, returned, reports, -, row⟩ := lanesRow_of_ending sound own alone canonical he
      rw [show lanesRow [] e = v.followedBy i (l.followsHere r) from row, sameFollow, hf] at leaves
      have told : v.reports = superseded ++ ended := reports.trans (congrArg₂ (· ++ ·) sameSuperseded sameEnd)
      exact told ▸ lined ▸ leaves.spliceOver canonical counted own returned alone
    · obtain ⟨v, returned, reports, -, row⟩ := lanesRow_of_ending sound own alone canonical he
      have none : l.supersededHere i = [] := Lane.supersededHere_of_follows (sameFollow.trans hf) i
      have told : v.reports = ended := reports.trans (congrArg₂ (· ++ ·) none sameEnd)
      have tests : loadTest v.st i index = loadTest s i index := returned.loadTest_eq index
      rw [show lanesRow [] e = v.followedBy i (l.followsHere r) from row, sameFollow, hf] at leaves
      refine ⟨fun why hl => ?_, fun next hl => ?_⟩
      · rw [LaneWork.followedBy, loadRecord_of_error (tests.trans hl)] at leaves
        exact told ▸ lined ▸ leaves.spliceOver canonical counted own (w := v.report [.chainEnded i index why]) returned alone
      · rw [LaneWork.followedBy, loadRecord_of_ok (tests.trans hl)] at leaves
        exact told ▸ lined ▸ leaves.spliceFollowed canonical counted own returned alone hl

end Sys2Proof.Machine
end

section
/-! Two triggers that meet at one slot: the lower lane gets it (R22, R25). -/

namespace Sys2Proof.Machine

/-- A load that only the Slot Table refuses (R25). -/
theorem loadTest_of_conflict {s : State} {i : Fin 8} {index : Fin 256} {r : Record} (hr : s.record index.val = some r)
    (ready : ∀ v ∈ r.voices, (s.clip v.clip.val).state = .ready) (length : effectiveLength s r ≠ 0)
    (conflict : ∃ v ∈ r.voices, ∃ owner, s.slots[v.slot] = some owner ∧ owner ≠ i) :
    loadTest s i index = .error .slotConflict := by
  have unready : ¬∃ v ∈ r.voices, (s.clip v.clip.val).state ≠ .ready := fun ⟨v, hv, hne⟩ => hne (ready v hv)
  rw [loadTest_of_record hr, if_neg (mt (any_not_ready_iff s r.voices).mp unready), if_neg length,
    if_pos ((any_conflict_iff s i r.voices).mpr conflict)]

/-- Once lane `i` has claimed a slot of the record, the load of another lane is refused (R22). -/
theorem loadTest_commitLoad {w : LaneWork} {i j : Fin 8} {m n : Fin 256} {a b : Record}
    (hc : sparseSorted w.st.clips = true) (hij : i ≠ j) (hb : loadTest w.st j n = .ok b)
    (share : ∃ v ∈ a.voices, ∃ x ∈ b.voices, v.slot = x.slot) :
    loadTest (commitLoad i m a w).st j n = .error .slotConflict := by
  obtain ⟨record, ready, long, -⟩ := loadTest_ok hb
  obtain ⟨-, -, slots, clip, -, -⟩ := commitLoad_spec hc i m a
  have table : (commitLoad i m a w).st.table = w.st.table := by rw [(LaneWork.follows_commitLoad i m a w).1]
  have length : effectiveLength (commitLoad i m a w).st b = effectiveLength w.st b := by
    simp only [effectiveLength, clip]
  obtain ⟨v, hv, x, hx, same⟩ := share
  refine loadTest_of_conflict (r := b) ?_ (fun v hv => ?_) (by omega) ⟨x, hx, i, ?_, hij⟩
  · rw [State.record, table]
    exact record
  · rw [clip]
    exact ready v hv
  · rw [slots, if_pos ((Record.mem_slotSet a x.slot).mpr ⟨v, hv, same⟩)]

/-- The lanes to which the triggers `ts` come, one to lane `i` and one to lane `j`, in either order. -/
def bringsTwo (ts : List LaneTrigger) (a b : LaneTrigger) : Prop := ts = [a, b] ∨ ts = [b, a]

section two
variable {ts : List LaneTrigger} {a b : LaneTrigger} (ht : bringsTwo ts a b)
include ht

theorem bringsTwo.symm : bringsTwo ts b a := Or.symm ht

theorem bringsTwo.applyTriggers (hne : a.lane ≠ b.lane) (w : LaneWork) :
    applyTriggers ts a.lane w = applyTrigger a.lane w a := by
  have other : (b.lane == a.lane) = false := beq_eq_false_iff_ne.mpr hne.symm
  rcases ht with rfl | rfl <;> simp [Machine.applyTriggers, other]

theorem bringsTwo.ne_of_ne {x : Fin 8} (ha : a.lane ≠ x) (hb : b.lane ≠ x) : ∀ t ∈ ts, t.lane ≠ x := by
  rcases ht with rfl | rfl <;> simp [ha, hb]

end two

/-- A row of lane steps in which only two lanes do something. -/
theorem foldl_finRange_of_two {f : LaneWork → Fin 8 → LaneWork} {i j : Fin 8} (hij : i < j)
    (kept : ∀ w x, LaneWork.OthersKept x w (f w x))
    (still : ∀ w x, w.st.lane x = Lane.idle → i ≠ x → j ≠ x → f w x = w) {w : LaneWork}
    (hw : ∀ x, w.st.lane x = Lane.idle) : (List.finRange 8).foldl f w = f (f w i) j := by
  rw [foldl_eq_foldl_filter (P := fun v => ∀ x, i ≠ x → j ≠ x → v.st.lane x = Lane.idle)
    (p := fun x => x == i || x == j) ?_ ?_ fun x _ _ => hw x, filter_finRange_eq_pair hij]
  · rfl
  · intro v y hv hy x hi hj
    have apart : x ≠ y := by
      rintro rfl
      simp [hi.symm, hj.symm] at hy
    exact (kept v y x apart).trans (hv x hi hj)
  · intro v y hv hy
    obtain ⟨hi, hj⟩ : y ≠ i ∧ y ≠ j := by simpa using hy
    exact still v y (hv y hi.symm hj.symm) hi.symm hj.symm

/-- The lanes' work when `a` loads its record `r` and `b` meets a slot it has claimed (R22, R25, R26). -/
def LaneWork.contested (a b : LaneTrigger) (r : Record) (w : LaneWork) : LaneWork :=
  (commitLoad a.lane a.record r w).report [.chainEnded b.lane b.record .slotConflict]

section contested
variable {ts : List LaneTrigger} {a b : LaneTrigger} (ht : bringsTwo ts a b) (hab : a.lane < b.lane) {w : LaneWork}
  (hw : ∀ x, w.st.lane x = Lane.idle) (hc : sparseSorted w.st.clips = true) {r r' : Record}
  (ha : loadTest w.st a.lane a.record = .ok r) (hb : loadTest w.st b.lane b.record = .ok r')
  (share : ∃ v ∈ r.voices, ∃ x ∈ r'.voices, v.slot = x.slot)
include ht hab hw hc ha hb share

/-- The lower lane loads, the other is refused, whatever the order of their triggers. -/
theorem applyTriggers_contested : applyTriggers ts a.lane w = commitLoad a.lane a.record r w
    ∧ (commitLoad a.lane a.record r w).st.lane b.lane = Lane.idle
    ∧ applyTriggers ts b.lane (commitLoad a.lane a.record r w) = w.contested a b r := by
  have idle : (commitLoad a.lane a.record r w).st.lane b.lane = Lane.idle := by
    rw [commitLoad_lane, if_neg hab.ne', hw]
  refine ⟨?_, idle, ?_⟩
  · rw [ht.applyTriggers hab.ne, applyTrigger_of_idle (by rw [hw]; rfl), loadRecord_of_ok ha]
  · rw [ht.symm.applyTriggers hab.ne', applyTrigger_of_idle (by rw [idle]; rfl),
      loadRecord_of_error (loadTest_commitLoad hc hab.ne hb share)]
    exact (congrArg (LaneWork.setLane _ b.lane) idle.symm).trans (LaneWork.setLane_self (w.contested a b r) b.lane)

theorem triggersRow_contested : triggersRow ts w = w.contested a b r := by
  obtain ⟨first, -, second⟩ := applyTriggers_contested ht hab hw hc ha hb share
  rw [triggersRow, foldl_finRange_of_two hab (fun v i => v.othersKept_applyTriggers ts i) (fun v i _ ha hb =>
    applyTriggers_of_none (ht.ne_of_ne ha hb) v) hw, first, second]

theorem foldl_laneSteps_contested :
    (List.finRange 8).foldl (fun w i => laneSteps ts i w) w = w.contested a b r := by
  obtain ⟨first, idle, second⟩ := applyTriggers_contested ht hab hw hc ha hb share
  rw [foldl_finRange_of_two hab (fun v i => v.othersKept_laneSteps ts i) (fun v i hi ha hb =>
    (laneSteps_of_idle ts hi).trans (applyTriggers_of_none (ht.ne_of_ne ha hb) v)) hw, laneSteps_of_idle ts (hw a.lane), first,
    laneSteps_of_idle ts idle, second]

end contested

end Sys2Proof.Machine
end

section
/-! Due triggers and their lanes: the statement, and the contest for a slot in the row and in an arrival (R22, R114). -/

namespace Sys2Proof.Machine

/-! The contest for a slot -/

/-- Where every lane is IDLE no slot is owned (R21). -/
theorem State.lanesSound.slots_of_idle {s : State} (h : s.lanesSound) (hi : ∀ i, s.lane i = Lane.idle) (j : Fin 16) :
    s.slots[j] = none := by
  refine Option.eq_none_iff_forall_ne_some.mpr fun i ho => ?_
  have owned := (h.2 j i).mp ho
  rw [hi i] at owned
  exact absurd owned List.not_mem_nil

/-- What the contest leaves, whatever else the command has done: the record of the lower lane, its slots, an empty Trigger
Queue and the two reports. -/
def State.slotContest (s t : State) (a b : LaneTrigger) (r : Record) : Prop :=
  (∀ x, t.lane x = if x = a.lane then Lane.loaded a.record r (effectiveLength s r) else Lane.idle)
    ∧ (∀ x : Fin 16, t.slots[x] = if ∃ v ∈ r.voices, v.slot = x then some a.lane else none)
    ∧ t.triggers = []
    ∧ t.reportsAfter s ((if r.reportStart then [.spliceStarted a.lane a.record r.tag] else [])
      ++ [.chainEnded b.lane b.record .slotConflict])

section contest
variable {s x t : State} {a b : LaneTrigger} {r : Record} (hs : s.Sound) (hi : ∀ i, s.lane i = Lane.idle)
  (hclips : x.clips = s.clips) (hlanes : x.lanes = s.lanes)
include hs hi hclips hlanes

/-- The contest frees no clip and leaves the phases right. -/
theorem contested_settled : ((LaneWork.start x).contested a b r).st.doomedUnused = []
    ∧ setPhases ((LaneWork.start x).contested a b r).st = ((LaneWork.start x).contested a b r).st := by
  have sorted : sparseSorted (LaneWork.start x).st.clips = true := hclips.symm ▸ hs.canonical.2.2.1
  refine ⟨commitLoad_doomedUnused sorted (hs.doomedUnused hclips) a.lane a.record r, setPhases_eq_self fun j r' hr' => ?_⟩
  have lane : ((LaneWork.start x).contested a b r).st.lane j
      = if j = a.lane then Lane.loaded a.record r (effectiveLength x r) else Lane.idle := by
    refine (commitLoad_lane a.lane a.record r (LaneWork.start x) j).trans ?_
    rw [show (LaneWork.start x).st.lane j = Lane.idle from (State.lane_congr hlanes j).trans (hi j)]
    rfl
  rw [lane] at hr' ⊢
  split at hr'
  · rename_i hj
    rw [if_pos hj]
    obtain rfl := Option.some.inj hr'
    rfl
  · cases hr'

theorem State.slotContest_of_contested (hslots : x.slots = s.slots) (hq : x.triggers = []) (hr : s.SameReports x)
    (tlanes : t.lanes = ((LaneWork.start x).contested a b r).st.lanes)
    (tslots : t.slots = ((LaneWork.start x).contested a b r).st.slots)
    (ttriggers : t.triggers = ((LaneWork.start x).contested a b r).st.triggers)
    (treports : t.reportsAfter ((LaneWork.start x).contested a b r).st ((LaneWork.start x).contested a b r).reports) :
    s.slotContest t a b r := by
  have sorted : sparseSorted (LaneWork.start x).st.clips = true := hclips.symm ▸ hs.canonical.2.2.1
  obtain ⟨-, lane, slot, -, reports, -⟩ := commitLoad_spec sorted a.lane a.record r
  have frame := (LaneWork.follows_commitLoad a.lane a.record r (LaneWork.start x)).1
  have length : effectiveLength x r = effectiveLength s r := by simp only [effectiveLength, State.clip_congr hclips]
  refine ⟨fun j => ?_, fun j => ?_, ?_, ?_⟩
  · refine (State.lane_congr tlanes j).trans ((lane j).trans ?_)
    rw [show (LaneWork.start x).st.lane j = Lane.idle from (State.lane_congr hlanes j).trans (hi j)]
    exact length ▸ rfl
  · rw [tslots]
    refine (slot j).trans ?_
    rw [show (LaneWork.start x).st.slots[j] = none from hslots ▸ hs.lanes.slots_of_idle hi j]
    simp only [Record.mem_slotSet]
  · rw [ttriggers]
    exact (congrArg State.triggers frame).trans hq
  · have same : s.SameReports ((LaneWork.start x).contested a b r).st := by
      show s.SameReports (commitLoad a.lane a.record r (LaneWork.start x)).st
      rw [frame]
      exact hr
    exact State.reportsAfter.of_same treports same

end contest

/-! The contest as the two commands have it -/

/-- The trigger that a TAKE entry delivers to its lane (R116). -/
def takeTrigger (i : Fin 8) (index : Fin 256) (policy : Policy) : LaneTrigger :=
  { lane := i, record := index, policy := policy, cue := 0 }

section commands
variable {s : State} {e f : TriggerEntry} {i j : Fin 8} {m n : Fin 256} {p q : Policy}

/-- Two TAKE entries due at one arrival are all that falls due, bring no unit a cue, and bring their lanes one trigger each. -/
theorem dueEntries_of_two {s : State} (hq : s.triggers = [e, f] ∨ s.triggers = [f, e]) (he : e.kind = .take i m p)
    (hf : f.kind = .take j n q) (due : e.fallsDue s.frameCount = true) (due' : f.fallsDue s.frameCount = true) :
    s.dropDue = { s with triggers := [] } ∧ (∀ v, deliveredTo s.dueEntries v = false)
      ∧ bringsTwo (s.dueEntries.flatMap (laneDeliveries s)) (takeTrigger i m p) (takeTrigger j n q) := by
  rcases hq with hq | hq
  · have entries : s.dueEntries = [e, f] := by simp [State.dueEntries, hq, due, due']
    refine ⟨by simp [State.dropDue, hq, due, due'], fun v => ?_, .inl ?_⟩
    · simp [entries, deliveredTo, he, hf]
    · simp [entries, laneDeliveries, takeTrigger, he, hf]
  · have entries : s.dueEntries = [f, e] := by simp [State.dueEntries, hq, due, due']
    refine ⟨by simp [State.dropDue, hq, due, due'], fun v => ?_, .inr ?_⟩
    · simp [entries, deliveredTo, he, hf]
    · simp [entries, laneDeliveries, takeTrigger, he, hf]

variable (hs : s.Sound) (hl : s.lock = .locked) (hi : ∀ x, s.lane x = Lane.idle) (hij : i < j)
  (hq : s.triggers = [e, f] ∨ s.triggers = [f, e]) (he : e.kind = .take i m p) (hf : f.kind = .take j n q)
  (due : e.fallsDue (s.frameCount + 1) = true) (due' : f.fallsDue (s.frameCount + 1) = true)
  {a b : Record} (ha : loadTest s i m = .ok a) (hb : loadTest s j n = .ok b)
  (share : ∃ v ∈ a.voices, ∃ w ∈ b.voices, v.slot = w.slot)
include hs hl hi hij hq he hf due due' ha hb share

theorem triggerFallsDue_contest : ∃ t, exec .triggerFallsDue s = .next t
    ∧ s.slotContest t (takeTrigger i m p) (takeTrigger j n q) a := by
  obtain ⟨left, units, two⟩ := dueEntries_of_two (s := s.countedIn) hq he hf due due'
  have row := triggersRow_contested two hij (w := LaneWork.start s.countedIn.dropDue) hi hs.canonical.2.2.1 ha hb share
  obtain ⟨nothing, -⟩ := contested_settled (x := s.countedIn.dropDue) (a := takeTrigger i m p)
    (b := takeTrigger j n q) (r := a) hs hi rfl rfl
  refine ⟨_, exec_triggerFallsDue_of_lanes hl fun u => units (s.unit u), ?_⟩
  rw [row, finishLanes_of_nothing_freed nothing rfl, List.append_nil]
  refine State.slotContest_of_contested hs hi (x := s.countedIn.dropDue) rfl rfl rfl (congrArg State.triggers left) ⟨rfl, rfl, rfl⟩
    ?_ ?_ ?_ ⟨rfl, rfl, rfl⟩
  · exact State.offerEvents_lanes ..
  · exact State.offerEvents_slots ..
  · exact State.offerEvents_triggers ..

theorem frameArrival_contest {line : LineFrame} {samples : SampleSet} {word : Option ControlWord} {run : Nat}
    (hu : ∀ u, s.unit u = CaptureUnit.idle) (hd : ∀ o, s.assembly = some o → s.frameCount + 1 ≠ o.start + 2048)
    (ht : s.takes line samples word run)
    (hw : ∀ w, word = some w → ¬forOrderUnit s.station w ∧ ¬actsOnCue s.station w)
    (ho : (s.slotOutcome (s.frameCount + 1) word).2.2.1 = s.reports) :
    ∃ t, exec (.frameArrival line) s = .next t
      ∧ s.slotContest t (takeTrigger i m p) (takeTrigger j n q) a := by
  obtain ⟨left, units, two⟩ := dueEntries_of_two (s := s.received samples run) hq he hf due due'
  have rest : (s.received samples run).unitsRest := fun u =>
    ⟨by rw [show (s.received samples run).unit u = CaptureUnit.idle from hu u]; nofun, units _⟩
  obtain ⟨ran, emitted⟩ := exec_frameArrival_of_no_departure hs.triggers hs.reports hl ht rest hd (fun w h => (hw w h).1) ho
  have emitted : (s.received samples run).emitted word = { s.received samples run with
      triggers := []
      cueOut := (s.slotOutcome (s.frameCount + 1) word).2.1
      wordPos := (s.slotOutcome (s.frameCount + 1) word).2.2.2 } := emitted.trans (by rw [left])
  generalize hx : (s.received samples run).emitted word = x at emitted
  have silent : s.heardCue word = [] := by
    cases word with
    | none => rfl
    | some w => exact if_neg fun h => (hw w rfl).2 h.1
  have clips : x.clips = s.clips := by rw [emitted]; rfl
  have lanes : x.lanes = s.lanes := by rw [emitted]; rfl
  have idle : ∀ k, (LaneWork.start x).st.lane k = Lane.idle := fun k => (State.lane_congr lanes k).trans (hi k)
  have loads : loadTest (LaneWork.start x).st i m = .ok a := by rw [emitted]; exact ha
  have loads' : loadTest (LaneWork.start x).st j n = .ok b := by rw [emitted]; exact hb
  obtain ⟨nothing, phases⟩ := contested_settled (x := x) (a := takeTrigger i m p)
    (b := takeTrigger j n q) (r := a) hs hi clips lanes
  have work : (s.received samples run).arrivalLanes word = (LaneWork.start x).contested (takeTrigger i m p)
      (takeTrigger j n q) a := by
    rw [State.arrivalLanes, hx, lanesRow]
    exact foldl_laneSteps_contested two hij idle (clips.symm ▸ hs.canonical.2.2.1) loads loads' share
  rw [← work] at nothing phases
  have cues : ((s.received samples run).arrivalLanes word).endCues = [] := by rw [work]; rfl
  have placed : (s.received samples run).arrivalPlaced word = ((s.received samples run).arrivalLanes word).st := by
    rw [State.arrivalPlaced_of_no_end_cue cues, State.arrivalMixed_of_nothing_freed nothing, phases]
  have done : (s.received samples run).arrivalDone word = ((s.received samples run).arrivalLanes word).st := by
    rw [State.arrivalDone, State.heardCue_received, silent, queueHearing_nil, placed]
  have events : (s.received samples run).arrivalEvents word = ((s.received samples run).arrivalLanes word).reports := by
    rw [State.arrivalEvents_of_no_end_cue nothing cues, State.heardCue_received, silent, queueMissing_nil, List.append_nil]
  rw [done, events, work] at ran
  refine ⟨_, ran, State.slotContest_of_contested hs hi (x := x) clips lanes (by rw [emitted]; rfl) (by rw [emitted])
    (by rw [emitted]; exact ⟨rfl, rfl, rfl⟩) ?_ ?_ ?_ ⟨rfl, rfl, rfl⟩⟩
  · exact State.offerEvents_lanes ..
  · exact State.offerEvents_slots ..
  · exact State.offerEvents_triggers ..

end commands

/-- Settles O54: one due trigger by the lane it meets and its policy, and the contest of two for a slot in either command. -/
theorem dueTriggerReachesItsLane : Obligations.DueTriggerReachesItsLane := by
  unfold Obligations.DueTriggerReachesItsLane
  refine ⟨?_, ?_⟩
  · intro s e rest i index policy cue hs locked hq he hrest hb l left
    have ran := exec_triggerFallsDue_single hs.cueMap locked hq he hrest hb
    have fewer : rest.Sublist s.triggers := hq ▸ List.sublist_cons_self e rest
    have leaves : ∀ {w : LaneWork} {u : State}, applyTrigger i (LaneWork.start (s.dueLeft rest))
          { lane := i, record := index, policy := policy, cue := cue } = w →
        w.st = { u with frameCount := s.frameCount + 1 } → u.frameCount = s.frameCount → u.clips = s.clips →
        w.endCues = [] → exec .triggerFallsDue s = .next (u.offerEvents w.reports) := by
      intro w u happ hu hf hc hn
      rw [ran, happ, hs.dueLeft_finish hu hf hc hn]
    have below : ∀ r, l.copy = some r → l.k < l.total := fun r hr => (hs.lanes.1 i).k_lt_total hr
    refine ⟨fun hidle reason hl => ?_, fun hidle r hl => ?_, fun hbusy hp => ?_, fun hbusy hp hn => ?_, fun hbusy hp hn => ?_,
      fun hbusy hp r hr hfalls => ?_, fun hbusy hp r hr hm hdone => ?_⟩
    · have idle : l = Lane.idle := (hs.lanes.1 i).eq_idle (by simpa [Lane.busy] using hidle)
      have load := loadRecord_of_error (w := LaneWork.start (s.dueLeft rest)) (i := i) (index := index) hl
      refine leaves (u := left) ((applyTrigger_of_idle hidle _).trans load) ?_ rfl rfl rfl
      have : (s.dueLeft rest).setLane i Lane.idle = s.dueLeft rest := idle ▸ State.setLane_self (s.dueLeft rest) i
      exact this
    · have load := loadRecord_of_ok (w := LaneWork.start (s.dueLeft rest)) (i := i) (index := index) hl
      rw [applyTrigger_of_idle hidle, load] at ran
      exact ⟨_, ran, dueLeft_commitLoad hs⟩
    · exact leaves (u := left) (applyTrigger_of_skip hbusy hp) rfl rfl rfl rfl
    · exact leaves (u := { left with lanes := _ }) (applyTrigger_of_queue hbusy hp hn) rfl rfl rfl rfl
    · exact leaves (u := left) (applyTrigger_of_queue_full hbusy hp hn) rfl rfl rfl rfl
    · intro cut
      have runs : ¬(l.mark = .unmarked ∧ recomputedTotal r l.total l.k = l.k) := by
        rintro ⟨hm, heq⟩
        rcases hfalls with hne | ⟨hv, hout⟩
        · exact hne hm
        · exact ((recomputedTotal_eq_self_iff r (below r hr)).mp heq).elim hv hout
      have context : l.afterCut r index = cut := Lane.afterCut_of_falls hfalls index
      have work : applyTrigger i (LaneWork.start (s.dueLeft rest)) { lane := i, record := index, policy := policy, cue := cue }
          = ((LaneWork.start (s.dueLeft rest)).report (supersededReport i l)).setLane i cut :=
        (applyTrigger_of_cut hbusy hp).trans ((cutTrigger_of_copy hr).trans ((if_neg runs).trans (context ▸ rfl)))
      refine (leaves (u := { left with lanes := s.lanes.set i cut }) work rfl rfl rfl rfl).trans ?_
      simp only [LaneWork.setLane, LaneWork.report, LaneWork.start, List.nil_append, supersededReport]
      cases l.pending <;> rfl
    · intro shown
      have work : applyTrigger i (LaneWork.start (s.dueLeft rest)) { lane := i, record := index, policy := policy, cue := cue }
          = endRecord i (s.cutWork rest i r index) :=
        (applyTrigger_of_cut hbusy hp).trans ((cutTrigger_of_copy hr).trans
          (if_pos ⟨hm, (recomputedTotal_eq_self_iff r (below r hr)).mpr hdone⟩))
      have told : supersededReport i l ++ endReport i l r .cut = shown := by
        simp only [supersededReport, shown]
        cases l.pending <;> rfl
      rw [work] at ran
      exact ⟨fun why hl => ⟨_, ran, told ▸ cutWork_over hs fewer hr hl⟩,
        fun next hl => ⟨_, ran, told ▸ cutWork_followed hs fewer hr hl⟩⟩
  · intro s line word e f i j m n p q a b hs locked hij hi hu hd hq he hf due due' ha hb share frame words out c hc
    obtain ⟨samples, run, takes⟩ := State.exists_takes frame
    rcases List.mem_pair.mp hc with rfl | rfl
    · exact triggerFallsDue_contest hs locked hi hij hq he hf due due' ha hb share
    · exact frameArrival_contest hs locked hi hij hq he hf due due' ha hb share hu hd takes words out

end Sys2Proof.Machine
end

section
/-! The Fade Law Table and the mix along it: the default law (R50), LOAD LAW and READ LAW (R51, R52), the arithmetic of
R61 and its exact ends (R62). -/

namespace Sys2Proof.Machine

/-! The entries of the law -/

/-- A fade index finds its own entry: the value read beyond the table's end never shows. -/
theorem State.lawEntry_eq_getElem (s : State) {k : Nat} (h : k < 64) : s.lawEntry k = s.law[k] := by
  simp [State.lawEntry, List.getD_eq_getElem?_getD, h]

theorem State.defaultLaw_getElem {k : Nat} (h : k < 64) : State.defaultLaw[k] = (2 * 65536 * k + 63) / (2 * 63) := by
  simp [State.defaultLaw]

theorem State.lawEntry_of_defaultLaw {s : State} (hs : s.law = State.defaultLaw) {k : Nat} (h : k < 64) :
    s.lawEntry k = (2 * 65536 * k + 63) / (2 * 63) := by
  rw [s.lawEntry_eq_getElem h, ← State.defaultLaw_getElem h]
  simp only [hs]

/-! The limited quotient of R61 -/

theorem limitSum_toInt (sum : Int) : (limitSum sum).toInt
    = if 8388607 < sum.tdiv 65536 then 8388607 else if sum.tdiv 65536 < -8388608 then -8388608 else sum.tdiv 65536 := by
  rw [limitSum, BitVec.toInt_ofInt_eq_self (by decide) (by omega) (by omega)]
  split
  · omega
  · split <;> omega

/-- A sample times the full gain of 65,536 comes back as it was. -/
theorem limitSum_full_gain (x : Sample) : limitSum (x.toInt * 65536) = x := by
  have low : -8388608 ≤ x.toInt := BitVec.le_toInt x
  have high : x.toInt ≤ 8388607 := Int.le_of_lt_add_one BitVec.toInt_lt
  refine BitVec.eq_of_toInt_eq ?_
  rw [limitSum_toInt, Int.mul_tdiv_cancel _ (by decide), if_neg (by omega), if_neg (by omega)]

/-! LOAD LAW and READ LAW -/

theorem orderLoadLaw_of_length {body : List Payload} (h : body.length ≠ 64) (s : State) :
    orderLoadLaw body s = .refuse .badLength s := if_pos h

theorem orderLoadLaw_of_field {body : List Payload} (h : body.length = 64) (hw : ∃ w ∈ body, 65536 < w.toNat)
    (s : State) : orderLoadLaw body s = .refuse .badField s := by
  rw [orderLoadLaw, if_neg (not_not_intro h), if_pos (by simpa using hw)]

/-- The Fade Law Table that a sound body brings. -/
def lawOf (body : List Payload) : Vector Nat 64 := Vector.ofFn fun i => (body.getD i.val 0).toNat

theorem lawOf_toList {body : List Payload} (h : body.length = 64) : (lawOf body).toList = body.map BitVec.toNat := by
  refine List.ext_getElem (by simp [h]) fun i _ hi => ?_
  have inside : i < body.length := by simpa using hi
  simp [lawOf, inside]

theorem orderLoadLaw_of_sound {body : List Payload} (h : body.length = 64) (hw : ∀ w ∈ body, w.toNat ≤ 65536)
    (s : State) : orderLoadLaw body s = .done { s with law := lawOf body } := by
  rw [orderLoadLaw, if_neg (not_not_intro h), if_neg (by simpa using hw), lawOf]

end Sys2Proof.Machine
end

section
/-! The statements on the fade law and the mix. -/

namespace Sys2Proof.Machine

/-- Settles O4: 126 times an entry is even and 131,072 × k ± 63 is odd, so the rounding meets no tie; at either end one of
the two gains is 0 and the other 65,536. -/
theorem defaultLawIsLinearAndExactAtItsEnds : Obligations.DefaultLawIsLinearAndExactAtItsEnds := by
  unfold Obligations.DefaultLawIsLinearAndExactAtItsEnds
  refine ⟨fun k => ?_, fun s clip programme under hs => ?_⟩
  · rw [Fin.getElem_fin, State.defaultLaw_getElem k.isLt]
    omega
  · have silent : s.lawEntry 0 = 0 := State.lawEntry_of_defaultLaw hs (by decide)
    have full : s.lawEntry 63 = 65536 := State.lawEntry_of_defaultLaw hs (by decide)
    have under_le : max (63 - 0) under.val = 63 := by omega
    constructor
    · rw [mixSample, under_le, silent, full]
      simpa using limitSum_full_gain programme
    · rw [mixSample, Nat.sub_self, Nat.max_self, silent, full]
      simpa using limitSum_full_gain clip

/-- Settles O38: the tests of LOAD LAW in their order, and the entries of READ LAW as the table holds them. -/
theorem loadAndReadLaw : Obligations.LoadAndReadLaw := by
  unfold Obligations.LoadAndReadLaw
  refine fun s seq body => ⟨fun fresh => ⟨fun hlen => ?_, fun hlen hw => ?_, fun hlen hw => ?_⟩, fun takes => ?_⟩
  · exact congrArg Host.Outcome.next (takeChange_refused fresh (orderLoadLaw_of_length hlen s))
  · exact congrArg Host.Outcome.next (takeChange_refused fresh (orderLoadLaw_of_field hlen hw s))
  · exact ⟨lawOf body, congrArg Host.Outcome.next (takeChange_done fresh (orderLoadLaw_of_sound hlen hw s)),
      lawOf_toList hlen⟩
  · cases body with
    | nil => exact congrArg Host.Outcome.next (takeRead_told takes rfl)
    | cons w ws => exact congrArg Host.Outcome.next (takeRead_told takes rfl)

/-- Settles O45: the model's sum is the statement's, and `limitSum_toInt` says what becomes of it. -/
theorem mixFollowsTheArithmetic : Obligations.MixFollowsTheArithmetic := by
  unfold Obligations.MixFollowsTheArithmetic
  exact fun s clip programme index under => limitSum_toInt _

end Sys2Proof.Machine
end

section
/-! The release recompute (R57, R58): the new total lies so far ahead that the down envelope starts at the present fade
index and falls by one every `rOut` frames, below an up envelope that only rises. -/

namespace Sys2Proof.Machine

/-! The envelopes -/

theorem upEnvelope_mono (rIn : Fin 1024) {k k' : Nat} (h : k ≤ k') : upEnvelope rIn k ≤ upEnvelope rIn k' := by
  unfold upEnvelope
  split
  · exact le_rfl
  · exact min_le_min le_rfl (Nat.div_le_div_right h)

theorem downEnvelope_of_pos {rOut : Fin 1024} (h : 1 ≤ rOut.val) (total k : Nat) :
    downEnvelope rOut total k = min 63 ((total - 1 - k) / rOut.val) := if_neg (by omega)

theorem downEnvelope_mul_le {rOut : Fin 1024} (h : 1 ≤ rOut.val) (total k : Nat) :
    downEnvelope rOut total k * rOut.val ≤ total - 1 - k := by
  rw [downEnvelope_of_pos h]
  exact (Nat.mul_le_mul_right _ (min_le_right _ _)).trans (Nat.div_mul_le_self _ _)

/-- The last `rOut` frames of a splice are silent. -/
theorem downEnvelope_eq_zero {rOut : Fin 1024} {total k : Nat} (hk : k < total) (h : total ≤ k + rOut.val) :
    downEnvelope rOut total k = 0 := by
  rw [downEnvelope_of_pos (by omega), Nat.div_eq_of_lt (by omega), Nat.min_zero]

/-- `n` frames into a fall from `j`, the quotient has gone down by `n / q`, rounded up. -/
theorem mul_sub_div_eq_sub_roundUp {q j n : Nat} (h : n ≤ j * q) (hq : 1 ≤ q) :
    (j * q - n) / q = j - (n + q - 1) / q := by
  cases n with
  | zero => rw [Nat.sub_zero, Nat.mul_div_cancel j hq, Nat.zero_add, Nat.div_eq_of_lt (by omega), Nat.sub_zero]
  | succ m =>
    rw [Nat.mul_comm j q] at h ⊢
    rw [Nat.mul_sub_div m q j h, show m + 1 + q - 1 = m + q by omega, Nat.add_div_right m hq]

theorem downEnvelope_of_fall {rOut : Fin 1024} {c j n : Nat} (h : 1 ≤ rOut.val) (hj : j ≤ 63) (hn : n ≤ j * rOut.val) :
    downEnvelope rOut (c + j * rOut.val + 1) (c + n) = j - (n + rOut.val - 1) / rOut.val := by
  rw [downEnvelope_of_pos h, show c + j * rOut.val + 1 - 1 - (c + n) = j * rOut.val - n by omega, mul_sub_div_eq_sub_roundUp hn h]
  exact min_eq_right ((Nat.sub_le _ _).trans hj)

/-! The fade index, the phase and the new total -/

theorem fadeIndex_le_upEnvelope (r : Record) (total k : Nat) : fadeIndex r total k ≤ upEnvelope r.rIn k := min_le_left _ _

theorem fadeIndex_le_downEnvelope (r : Record) (total k : Nat) : fadeIndex r total k ≤ downEnvelope r.rOut total k :=
  min_le_right _ _

/-- The phase of a record with voices whose down envelope is not above its up envelope (R55). -/
theorem phaseAt_of_down_le {r : Record} {total k : Nat} (hv : r.voices ≠ [])
    (h : downEnvelope r.rOut total k ≤ upEnvelope r.rIn k) : phaseAt r total k
      = if downEnvelope r.rOut total k = 63 then .onAir
        else if upEnvelope r.rIn k = downEnvelope r.rOut total k then .fadeIn else .fadeOut := by
  have index : fadeIndex r total k = downEnvelope r.rOut total k := min_eq_right h
  have voiced : r.isPause = false := by simpa [Record.isPause] using hv
  rw [phaseAt, voiced, if_neg Bool.false_ne_true, index]
  simp only [le_antisymm_iff (a := upEnvelope r.rIn k), h, and_true]

/-- The fall from the present index always fits before the old total, so the minimum of R57 is the new end. -/
theorem recomputedTotal_eq_fall {r : Record} {total c : Nat} (hv : r.voices ≠ []) (hout : 1 ≤ r.rOut.val) (hc : c < total) :
    recomputedTotal r total c = c + fadeIndex r total c * r.rOut.val + 1 := by
  have fits : fadeIndex r total c * r.rOut.val ≤ total - 1 - c :=
    (Nat.mul_le_mul_right _ (fadeIndex_le_downEnvelope r total c)).trans (downEnvelope_mul_le hout total c)
  rw [recomputedTotal_of_falls hv (by omega)]
  omega

/-- An unlimited down envelope that holds the present index leaves less than `rOut` frames between the fall's end and the old
total. -/
theorem total_le_fall {r : Record} {total c : Nat} (hout : 1 ≤ r.rOut.val) (hc : c < total)
    (unlimited : downEnvelope r.rOut total c = (total - 1 - c) / r.rOut.val)
    (below : downEnvelope r.rOut total c ≤ upEnvelope r.rIn c) :
    total ≤ c + fadeIndex r total c * r.rOut.val + 1 + (r.rOut.val - 1) := by
  have index : fadeIndex r total c = (total - 1 - c) / r.rOut.val := (min_eq_right below).trans unlimited
  have quotient := Nat.lt_div_mul_add (a := total - 1 - c) hout
  rw [index]
  omega

section fall
variable {r : Record} {c j n : Nat} (hout : 1 ≤ r.rOut.val) (hj : j ≤ upEnvelope r.rIn c) (top : j ≤ 63)
  (hn : n ≤ j * r.rOut.val)
include hout hj top hn

/-- Along the fall from `j` the down envelope stays at `j` or below it, and so below the up envelope. -/
theorem downEnvelope_le_up_of_fall :
    downEnvelope r.rOut (c + j * r.rOut.val + 1) (c + n) ≤ upEnvelope r.rIn (c + n) := by
  rw [downEnvelope_of_fall hout top hn]
  exact (Nat.sub_le _ _).trans (hj.trans (upEnvelope_mono r.rIn (Nat.le_add_right c n)))

theorem fadeIndex_of_fall :
    fadeIndex r (c + j * r.rOut.val + 1) (c + n) = downEnvelope r.rOut (c + j * r.rOut.val + 1) (c + n) :=
  min_eq_right (downEnvelope_le_up_of_fall hout hj top hn)

/-- After the frame of the recompute itself the index is below `j`, where the up envelope still is not. -/
theorem phaseAt_of_fall (hv : r.voices ≠ []) (h : 1 ≤ n) : phaseAt r (c + j * r.rOut.val + 1) (c + n) = .fadeOut := by
  have step : 1 ≤ (n + r.rOut.val - 1) / r.rOut.val := (Nat.one_le_div_iff hout).mpr (by omega)
  have started : j ≠ 0 := by rintro rfl; omega
  have rises := upEnvelope_mono r.rIn (Nat.le_add_right c n)
  rw [phaseAt_of_down_le hv (downEnvelope_le_up_of_fall hout hj top hn), downEnvelope_of_fall hout top hn,
    if_neg (by omega), if_neg (by omega)]

end fall

/-- Settles O46: the fall from the present index, frame by frame to the new end. -/
theorem releaseFallsSteadily : Obligations.ReleaseFallsSteadily := by
  unfold Obligations.ReleaseFallsSteadily
  intro r total c hv hout hc j fresh
  have end_eq : fresh = c + j * r.rOut.val + 1 := recomputedTotal_eq_fall hv hout hc
  have up : j ≤ upEnvelope r.rIn c := fadeIndex_le_upEnvelope r total c
  have top : j ≤ 63 := fadeIndex_le r total c
  have bound : fresh ≤ total := (recomputedTotal_bounds r hc).2
  have long : downEnvelope r.rOut total c = (total - 1 - c) / r.rOut.val →
      downEnvelope r.rOut total c ≤ upEnvelope r.rIn c → total ≤ fresh + (r.rOut.val - 1) :=
    end_eq ▸ total_le_fall hout hc
  clear_value j fresh
  subst end_eq
  have start : downEnvelope r.rOut (c + j * r.rOut.val + 1) c = j := by
    have := downEnvelope_of_fall (c := c) hout top (Nat.zero_le _)
    rwa [Nat.add_zero, Nat.zero_add, Nat.div_eq_of_lt (by omega), Nat.sub_zero] at this
  refine ⟨bound, rfl, start, up, ?_, fun n h1 hn => ?_, fun k _ hk hend => ?_, ?_, long, fun h => by omega,
    fun h => by simp [h]⟩
  · exact (min_eq_right (start.trans_le up)).trans start
  · have below : n ≤ j * r.rOut.val := by omega
    have index := fadeIndex_of_fall hout up top below
    exact ⟨index.trans (downEnvelope_of_fall hout top below), index, phaseAt_of_fall hout up top below hv h1⟩
  · exact Nat.le_zero.mp ((fadeIndex_le_downEnvelope r _ k).trans (downEnvelope_eq_zero hk hend).le)
  · rw [phaseAt_of_down_le hv (start.trans_le up), start]

end Sys2Proof.Machine
end

section
/-! CAPTURE and CANCEL CAPTURE (R89 to R91, R97). -/

namespace Sys2Proof.Machine
-- As in the tests, one thread: the whole text is compiled under one limit of memory.
set_option Elab.async false

/-! CAPTURE (R89 to R91) -/

theorem orderCapture_of_length {body : List Payload} (h : body.length ≠ 5) (s : State) :
    orderCapture body s = .refuse .badLength s := by
  unfold orderCapture
  split
  · exact absurd rfl h
  · rfl

/-- A field of CAPTURE beyond its range refuses the order (R89). -/
theorem orderCapture_of_field {body : List Payload} (hlen : body.length = 5)
    (h : 1 < (body.getD 0 0).toNat ∨ 511 < (body.getD 1 0).toNat ∨ 15 < (body.getD 2 0).toNat ∨ (body.getD 3 0).toNat = 0
      ∨ 1048576 < (body.getD 3 0).toNat ∨ 4095 < (body.getD 4 0).toNat) (s : State) :
    orderCapture body s = .refuse .badField s := by
  match body, hlen with
  | [unit, clip, slot, wanted, cue], _ =>
    simp only [List.getD_cons_zero, List.getD_cons_succ] at h
    simp only [orderCapture]
    split
    · rename_i u c j n hu hc hj hn
      rw [fieldBelow_eq_some] at hu hc hj hn
      exact if_pos (by omega)
    · rfl

/-- CAPTURE with its fields in range: the tests of the unit and of the clip, then the start or the arming. -/
theorem orderCapture_of_fields (u : Fin 2) (c : Fin 512) (slot : Fin 16) {wanted : Nat} (cue : Fin 4096) (h : 1 ≤ wanted)
    (h' : wanted ≤ 1048576) (s : State) :
    orderCapture (toPayloads [u.val, c.val, slot.val, wanted, cue.val]) s
      = if (s.unit u).state ≠ .idle then .refuse .unitBusy s
        else if (s.clip c.val).state ≠ .free then .refuse .wrongState s
        else .done (if cue = 0 then captureNow u c slot wanted s else captureArmed u c slot wanted cue s) := by
  have number : (BitVec.ofNat 24 wanted).toNat = wanted := toNat_payload (by omega)
  simp only [toPayloads, List.map_cons, List.map_nil, orderCapture, fieldBelow_ofNat u (by decide),
    fieldBelow_ofNat c (by decide), fieldBelow_ofNat slot (by decide), fieldBelow_ofNat cue (by decide), number,
    Fin.val_eq_zero_iff]
  rw [if_neg (by omega)]
  split_ifs <;> rfl

/-- Settles O36: the tests in their order, and the unit and the clip of either outcome. -/
theorem captureStartsOrArms : Obligations.CaptureStartsOrArms := by
  intro s seq body i canonical fresh hi f
  have taken : exec i s = .next (whenLocked (takeChange 18 seq (orderCapture body)) s) := by
    rcases hi with rfl | rfl <;> rfl
  rw [taken]
  refine ⟨fun hlen => ?_, fun hlen hfield => ?_, fun u c slot wanted cue low high hbody => ?_⟩
  · rw [takeChange_refused fresh (orderCapture_of_length hlen s)]
  · rw [takeChange_refused fresh (orderCapture_of_field hlen hfield s)]
  · have outcome := hbody ▸ orderCapture_of_fields u c slot cue low high s
    refine ⟨fun busy => ?_, fun idle used => ?_, fun idle free => ?_⟩
    · rw [takeChange_refused fresh (outcome.trans (if_pos busy))]
    · rw [takeChange_refused fresh (outcome.trans ((if_neg (not_not.mpr idle)).trans (if_pos used)))]
    · rw [if_neg (not_not.mpr idle), if_neg (not_not.mpr free)] at outcome
      rw [takeChange_done fresh outcome]
      by_cases hcue : cue = 0
      · simp only [if_pos hcue]
        exact ⟨_, rfl, fun d => State.clip_setClip canonical.2.2.1 c.val d _⟩
      · simp only [if_neg hcue]
        exact ⟨_, rfl, fun d => State.clip_setClip canonical.2.2.1 c.val d _⟩

/-! CANCEL CAPTURE (R97) -/

theorem orderCancelCapture_of_length {body : List Payload} (h : body.length ≠ 1) (s : State) :
    orderCancelCapture body s = .refuse .badLength s := by
  unfold orderCancelCapture
  split
  · exact absurd rfl h
  · rfl

theorem orderCancelCapture_of_field {w : Payload} (h : 1 < w.toNat) (s : State) :
    orderCancelCapture [w] s = .refuse .badField s := by
  simp only [orderCancelCapture, fieldBelow_of_ge (show 2 ≤ w.toNat from h)]

theorem orderCancelCapture_of_unit (u : Fin 2) (s : State) :
    orderCancelCapture (toPayloads [u.val]) s
      = if (s.unit u).state = .idle then .refuse .wrongState s
        else { status := .done, data := [], st := (cancelUnit .order u s).1, events := (cancelUnit .order u s).2 } := by
  simp only [toPayloads, List.map_cons, List.map_nil, orderCancelCapture, fieldBelow_ofNat u (by decide)]

theorem CaptureUnit.clipNumber_of_clip {v : CaptureUnit} {c : Fin 512} (h : v.clip = some c) : v.clipNumber = c.val := by
  simp [CaptureUnit.clipNumber, h]

/-- A unit with a clip is not IDLE (R86). -/
theorem unitSound.not_idle {s : State} {u : Fin 2} (h : unitSound s u) {c : Fin 512} (hc : (s.unit u).clip = some c) :
    (s.unit u).state ≠ .idle := by
  rcases h with idle | ⟨-, -, -, -, -, -, ⟨armed, -⟩ | ⟨recording, -⟩⟩
  · rw [idle] at hc; cases hc
  · rw [armed]; nofun
  · rw [recording]; nofun

/-- The cancelling of a unit that holds clip `c`, written out (R67, R97). -/
theorem cancelUnit_of_clip {s : State} {u : Fin 2} {c : Fin 512} (h : unitSound s u) (hc : (s.unit u).clip = some c)
    (reason : CancelReason) :
    cancelUnit reason u s = ((s.freeClip c.val).setUnit u CaptureUnit.idle, [.captureCancelled u c.val reason]) := by
  simp only [cancelUnit, if_neg (h.not_idle hc), CaptureUnit.clipNumber_of_clip hc]

/-- Settles O37: the refusals, and the cancelling of a unit that holds a clip. -/
theorem cancelCaptureFreesTheClip : Obligations.CancelCaptureFreesTheClip := by
  intro s seq body canonical sound fresh
  have taken : exec (.cancelCapture seq body) s = .next (whenLocked (takeChange 19 seq (orderCancelCapture body)) s) := rfl
  rw [taken]
  refine ⟨fun hlen => ?_, fun w hw hfield => ?_, fun u hbody => ⟨fun idle => ?_, fun c hclip => ?_⟩⟩
  · rw [takeChange_refused fresh (orderCancelCapture_of_length hlen s)]
  · rw [takeChange_refused fresh (hw ▸ orderCancelCapture_of_field hfield s)]
  · rw [takeChange_refused fresh ((hbody ▸ orderCancelCapture_of_unit u s).trans (if_pos idle))]
  · have outcome := hbody ▸ orderCancelCapture_of_unit u s
    rw [if_neg ((sound.2.1 u).not_idle hclip), cancelUnit_of_clip (sound.2.1 u) hclip] at outcome
    rw [takeChange_fresh fresh, outcome]
    exact ⟨(s.freeClip c.val).clips, congrArg Host.Outcome.next (congrArg (State.offerEvent · _) rfl),
      fun d => State.clip_freeClip canonical.2.2.1 c.val d⟩

end Sys2Proof.Machine
end

section
/-! The work of a capture unit: the write of one sample, the completion and the end for want of a block (R92 to R96), and the
CAPTURE_COMPLETE row. -/

namespace Sys2Proof.Machine
-- As in the tests, one thread: the whole text is compiled under one limit of memory.
set_option Elab.async false

/-! Completion and short end (R95, R96) -/

/-- A completed capture: the unit IDLE, its clip READY without a filler (R95). -/
theorem completeCapture_spec {s : State} (h : sparseSorted s.clips = true) (u : Fin 2) :
    (∀ x, (completeCapture u s).1.unit x = if x = u then CaptureUnit.idle else s.unit x)
      ∧ ∀ d, (completeCapture u s).1.clip d = if d = (s.unit u).clipNumber then
          { s.clip d with state := .ready, filler := none, short := false } else s.clip d := by
  refine ⟨fun x => ?_, fun d => ?_⟩
  · simp only [completeCapture, State.unit_congr (State.setClip_units ..), State.unit_setUnit]
  · refine (State.clip_setClip (s := s.setUnit u CaptureUnit.idle) h _ d _).trans ?_
    by_cases hd : d = (s.unit u).clipNumber
    · rw [if_pos hd, if_pos hd, hd]
    · rw [if_neg hd, if_neg hd]
      rfl

/-- A capture that ends short: the unit IDLE, its clip READY and short, or FREE when it holds no sample; a clip without
samples has no block to return (R96, R98). -/
theorem endCaptureShort_spec {s : State} (h : sparseSorted s.clips = true) (reason : DoneReason) {u : Fin 2} {c : Fin 512}
    (hclip : (s.unit u).clip = some c) (hempty : (s.unit u).written = 0 → (s.clip c.val).chain = []) :
    let t := (endCaptureShort reason u s).1
    (∀ x, t.unit x = if x = u then CaptureUnit.idle else s.unit x)
      ∧ (∀ d, t.clip d = if d = c.val then
          if (s.unit u).written = 0 then Clip.freed
          else { s.clip c.val with state := .ready, filler := none, short := true }
        else s.clip d)
      ∧ t.freeBlocks = s.freeBlocks ∧ t.memory = s.memory
      ∧ (endCaptureShort reason u s).2 = [.captureDone u c.val (s.unit u).written reason] := by
  simp only [endCaptureShort, CaptureUnit.clipNumber_of_clip hclip]
  by_cases hw : (s.unit u).written = 0
  · simp only [if_pos hw]
    refine ⟨fun x => ?_, fun d => State.clip_freeClip (s := s.setUnit u CaptureUnit.idle) h c.val d, ?_, rfl, ?_⟩
    · simp only [State.unit_congr (State.freeClip_units ..), State.unit_setUnit]
    · exact (congrArg (s.freeBlocks ++ ·) (hempty hw)).trans (List.append_nil _)
    · rw [hw]
  · simp only [if_neg hw]
    refine ⟨fun x => ?_, fun d => State.clip_setClip (s := s.setUnit u CaptureUnit.idle) h c.val d _, rfl, rfl, trivial⟩
    simp only [State.unit_congr (State.setClip_units ..), State.unit_setUnit]

/-! The write of one sample (R94) -/

/-- Unit `u` writes the samples of input slot `slot` into clip `c`, as many so far as it has counted (R86, R87). -/
def State.fills (s : State) (u : Fin 2) (c : Fin 512) (slot : Fin 16) : Prop :=
  (s.unit u).clip = some c ∧ (s.unit u).slot = some slot ∧ (s.clip c.val).length = (s.unit u).written
    ∧ (s.clip c.val).chain.length = blocksFor (s.unit u).written

/-- A sound unit with a clip and a slot fills the one from the other. -/
theorem State.captureSound.fills {s : State} (h : s.captureSound) {u : Fin 2} {c : Fin 512} {slot : Fin 16}
    (hc : (s.unit u).clip = some c) (hslot : (s.unit u).slot = some slot) : s.fills u c slot := by
  rcases h.2.1 u with idle | ⟨d, hd, -, -, hlen, -⟩
  · rw [idle] at hc; cases hc
  · obtain rfl := Option.some.inj (hc.symm.trans hd)
    obtain ⟨-, -, -, hchain⟩ := h.clip c.val
    exact ⟨hc, hslot, hlen, hlen ▸ hchain⟩

/-- The chain of a clip once unit `u` has claimed the block it needs for its next sample (R66, R94). -/
def State.chainFor (s : State) (u : Fin 2) (c : Nat) : List Nat :=
  (s.clip c).chain ++ if (s.unit u).written % 256 = 0 then s.freeBlocks.take 1 else []

/-- `t` holds what unit `u` leaves by writing the sample `x` at the position of its samples written: the sample counted, or
the capture complete, in the unit and in its clip `c`, a block claimed at a multiple of 256, and the sample in its place
(R94, R95). -/
def State.wroteSample (s t : State) (u : Fin 2) (c : Nat) (x : Sample) : Prop :=
  let v := s.unit u
  let q := v.written
  (∀ y, t.unit y = if y = u then if q + 1 = v.wanted then CaptureUnit.idle else { v with written := q + 1 } else s.unit y)
    ∧ (∀ d, t.clip d = if d = c then
          if q + 1 = v.wanted then
            { s.clip c with state := .ready, length := q + 1, chain := s.chainFor u c, filler := none, short := false }
          else { s.clip c with length := q + 1, chain := s.chainFor u c }
        else s.clip d)
    ∧ t.freeBlocks = (if q % 256 = 0 then s.freeBlocks.drop 1 else s.freeBlocks)
    ∧ ∀ a, Memory.read t.memory a = if a = sampleAddress ((s.chainFor u c).getD (q / 256) 0) (q % 256) then some x
        else Memory.read s.memory a

/-- The sample written reads back at its position (R78). -/
theorem State.wroteSample.readBack {s t : State} {u : Fin 2} {c : Nat} {x : Sample} (h : s.wroteSample t u c x) :
    t.readClipSample c (s.unit u).written = x := by
  obtain ⟨-, hclip, -, hmem⟩ := h
  have chain : (t.clip c).chain = s.chainFor u c := by
    rw [hclip, if_pos rfl]
    split <;> rfl
  rw [State.readClipSample, State.sampleAt, chain, hmem, if_pos rfl]

/-- Capture work reaches the Clip Store and the units alone, so that what it wrote stands in any state that agrees there. -/
theorem State.wroteSample.congr {s t t' : State} {u : Fin 2} {c : Nat} {x : Sample} (h : s.wroteSample t u c x)
    (hu : t'.units = t.units) (hc : t'.clips = t.clips) (hf : t'.freeBlocks = t.freeBlocks) (hm : t'.memory = t.memory) :
    s.wroteSample t' u c x := by
  obtain ⟨unit, clip, blocks, mem⟩ := h
  exact ⟨fun y => (State.unit_congr hu y).trans (unit y), fun d => (State.clip_congr hc d).trans (clip d), hf.trans blocks,
    fun a => hm ▸ mem a⟩

/-- A unit whose claim finds no block ends its capture (R96). -/
theorem writeUnit_of_full {s : State} {u : Fin 2} {c : Fin 512} {slot : Fin 16} (hf : s.fills u c slot)
    (programme : SampleSet) (hq : (s.unit u).written % 256 = 0) (hfree : s.freeBlocks = []) :
    writeUnit programme u s = endCaptureShort .storeFull u s := by
  obtain ⟨hclip, -, hlen, -⟩ := hf
  have none : ∀ x, s.writeClip c.val x = none := fun x => by
    simp only [State.writeClip, hlen, hq, if_true, hfree]
  simp only [writeUnit, CaptureUnit.clipNumber_of_clip hclip, none]

section write
variable {s : State} {u : Fin 2} {c : Fin 512} {slot : Fin 16} (hs : sparseSorted s.clips = true) (hf : s.fills u c slot)
include hs hf

/-- A write that needs no block or finds one is made: what it leaves of the clip, the Free Block List and the memory (R94). -/
theorem writeClip_of_room (x : Sample) (hroom : (s.unit u).written % 256 = 0 → s.freeBlocks ≠ []) :
    ∃ t, s.writeClip c.val x = some t ∧ sparseSorted t.clips = true ∧ t.units = s.units
      ∧ (∀ d, t.clip d = if d = c.val then
          { s.clip c.val with length := (s.unit u).written + 1, chain := s.chainFor u c.val } else s.clip d)
      ∧ t.freeBlocks = (if (s.unit u).written % 256 = 0 then s.freeBlocks.drop 1 else s.freeBlocks)
      ∧ ∀ a, Memory.read t.memory a
          = if a = sampleAddress ((s.chainFor u c.val).getD ((s.unit u).written / 256) 0) ((s.unit u).written % 256) then some x
            else Memory.read s.memory a := by
  obtain ⟨-, -, hlen, hchain⟩ := hf
  obtain ⟨t, ht, sorted⟩ : ∃ t, s.writeClip c.val x = some t ∧ sparseSorted t.clips = true := by
    rcases s.writeClip_cases c.val x with ⟨h0, hfree, -⟩ | ⟨_, _, -, -, h⟩ | ⟨-, h⟩
    · exact absurd hfree (hroom (hlen ▸ h0))
    · exact ⟨_, h, State.sorted_setClip hs _ _⟩
    · exact ⟨_, h, State.sorted_setClip hs _ _⟩
  obtain ⟨own, others, blocks⟩ := State.writeClip_clip hs ht
  have mem := State.writeClip_memory hs (hlen.symm ▸ hchain) ht
  rw [own] at mem
  rw [hlen] at own blocks mem
  refine ⟨t, ht, sorted, by rw [State.writeClip_frame ht], fun d => ?_, blocks, mem⟩
  split
  · rename_i hd; rw [hd, own]; rfl
  · rename_i hd; exact others d hd

/-- A unit that needs no block or finds one writes its sample, and completes at its wanted length (R94, R95). -/
theorem writeUnit_of_room (programme : SampleSet) (hroom : (s.unit u).written % 256 = 0 → s.freeBlocks ≠ []) :
    s.wroteSample (writeUnit programme u s).1 u c.val programme[slot]
      ∧ (writeUnit programme u s).2
        = if (s.unit u).written + 1 = (s.unit u).wanted then [.captureDone u c.val (s.unit u).wanted .complete] else [] := by
  obtain ⟨t, ht, sorted, units, clips, blocks, mem⟩ := writeClip_of_room hs hf programme[slot] hroom
  obtain ⟨hclip, hslot, -, -⟩ := hf
  have sample : programme.toList.getD (((s.unit u).slot.map Fin.val).getD 0) 0 = programme[slot] := by
    simp [hslot]
  have work : writeUnit programme u s
      = if (s.unit u).written + 1 = (s.unit u).wanted then
          completeCapture u (t.setUnit u { s.unit u with written := (s.unit u).written + 1 })
        else (t.setUnit u { s.unit u with written := (s.unit u).written + 1 }, []) := by
    simp only [writeUnit, CaptureUnit.clipNumber_of_clip hclip, sample, ht]
  have counted : ∀ y, (t.setUnit u { s.unit u with written := (s.unit u).written + 1 }).unit y
      = if y = u then { s.unit u with written := (s.unit u).written + 1 } else s.unit y := fun y => by
    rw [State.unit_setUnit, State.unit_congr units]
  rw [work]
  by_cases done : (s.unit u).written + 1 = (s.unit u).wanted
  · obtain ⟨idle, ready⟩ := completeCapture_spec (s := t.setUnit u { s.unit u with written := (s.unit u).written + 1 })
      sorted u
    have number : ((t.setUnit u { s.unit u with written := (s.unit u).written + 1 }).unit u).clipNumber = c.val := by
      rw [counted, if_pos rfl]
      exact CaptureUnit.clipNumber_of_clip hclip
    rw [number] at ready
    simp only [if_pos done]
    refine ⟨⟨fun y => (idle y).trans ?_, fun d => (ready d).trans ?_, blocks, mem⟩, ?_⟩
    · rw [if_pos done, counted]
      split <;> rfl
    · rw [if_pos done, show (t.setUnit u _).clip d = t.clip d from rfl, clips]
      split <;> rfl
    · rw [completeCapture, number, show (t.setUnit u _).clip c.val = t.clip c.val from rfl, clips, if_pos rfl, ← done]
  · simp only [if_neg done]
    refine ⟨⟨fun y => (counted y).trans ?_, fun d => (clips d).trans ?_, blocks, mem⟩, trivial⟩
    · rw [if_neg done]
    · rw [if_neg done]

end write

theorem State.units_ext {s t : State} (h : ∀ u, t.unit u = s.unit u) : t.units = s.units :=
  Vector.ext fun u hu => h ⟨u, hu⟩

/-! CAPTURE_COMPLETE (R95) -/

/-- A sound unit has not written what it wants. -/
theorem unitSound.written_ne_wanted {s : State} {u : Fin 2} (h : unitSound s u) (hu : (s.unit u).state ≠ .idle) :
    (s.unit u).written ≠ (s.unit u).wanted := by
  rcases h with idle | ⟨-, -, -, -, -, below, -⟩
  · exact absurd (by rw [idle]; rfl) hu
  · exact below.ne

/-- CAPTURE_COMPLETE on a sound unit whose last sample is still to come. -/
theorem completeUnit_of_sound {s : State} {u : Fin 2} (h : unitSound s u) : completeUnit u s
    = if (s.unit u).state = .recording ∧ (s.unit u).written + 1 = (s.unit u).wanted
          ∧ ((s.unit u).written % 256 ≠ 0 ∨ s.freeBlocks ≠ []) then
        (writeUnit s.lastGood u s).1.offerEvents (writeUnit s.lastGood u s).2
      else s := by
  refine if_neg fun ⟨recording, all⟩ => ?_
  exact h.written_ne_wanted (by rw [recording]; nofun) all

/-- Settles O56: the last write of `writeUnit_of_room`, with its report offered. -/
theorem captureCompletesAtItsLength : Obligations.CaptureCompletesAtItsLength := by
  intro s u sound locked
  have ran : exec (.captureComplete u) s = .next (completeUnit u s) := congrArg _ (whenLocked_of_locked _ locked)
  rw [ran, completeUnit_of_sound (sound.capture.2.1 u)]
  refine ⟨fun away => ?_, ?_⟩
  · rw [if_neg fun ⟨recording, last, _⟩ => away.elim (· recording) (· last)]
  · intro c slot recording hclip hslot last q room chain
    rw [if_pos ⟨recording, last, or_iff_not_imp_left.mpr fun h0 => room (not_not.mp h0)⟩]
    have sorted := sound.canonical.2.2.1
    have fills := sound.capture.fills hclip hslot
    obtain ⟨wrote, told⟩ := writeUnit_of_room sorted fills s.lastGood room
    have follows : (writeUnit s.lastGood u s).1 = { s with units := _, clips := _, memory := _, freeBlocks := _ } :=
      State.captureFollows_writeUnit s s.lastGood u
    rw [if_pos last] at told
    rw [told]
    generalize (writeUnit s.lastGood u s).1 = t at *
    have same : s.SameReports t := by rw [follows]; exact ⟨rfl, rfl, rfl⟩
    obtain ⟨unit, clip, blocks, mem⟩ := wrote.congr (t' := t.offerEvents [.captureDone u c.val (s.unit u).wanted .complete])
      (State.offerEvents_units ..) (State.offerEvents_clips ..) (State.offerEvents_freeBlocks ..)
      (State.offerEvents_memory ..)
    refine ⟨_, rfl, ?_, ?_, fun d hd => (clip d).trans (if_neg hd), blocks, ?_, fun a ha => (mem a).trans (if_neg ha),
      same.offerEvents _, ?_⟩
    · refine State.units_ext (s := s.setUnit u CaptureUnit.idle) fun y => ?_
      rw [unit, if_pos last, State.unit_setUnit]
    · rw [clip, if_pos rfl, if_pos last, ← last]
      rfl
    · exact State.wroteSample.readBack ⟨unit, clip, blocks, mem⟩
    · rw [State.offerEvents_frame, follows]

end Sys2Proof.Machine
end

section
/-! An arrival at which one capture unit works and the lanes are IDLE: the unit's work, whatever its turn, is all that the
store and the units see of the arrival (R28, R67, R93). -/

namespace Sys2Proof.Machine
-- As in the tests, one thread: the whole text is compiled under one limit of memory.
set_option Elab.async false

/-! One unit at work among lanes that do nothing -/

/-- A row over all of `Fin n` whose step `i` leads from `g i` to `g (i + 1)` leads from `g 0` to `g n`. -/
theorem foldl_finRange_of_steps {β : Type} {n : Nat} {f : β → Fin n → β} {g : Nat → β}
    (h : ∀ i : Fin n, f (g i.val) i = g (i.val + 1)) : (List.finRange n).foldl f (g 0) = g n := by
  induction n with
  | zero => rfl
  | succ n ih =>
    rw [List.finRange_succ_last, List.foldl_append, List.foldl_map, ih fun i => h i.castSucc]
    exact h (Fin.last n)

theorem unitsAt_of_one {p : ArrivalPlan} {s0 : State} {u : Fin 2} (h : ∀ x, x ≠ u → unitActive p s0 x = false)
    (turn : Fin 10) (w : ArrivalWork) : unitsAt p s0 turn w = unitAt p s0 turn u w := by
  have still : ∀ x, x ≠ u → ∀ w, unitAt p s0 turn x w = w := fun x hx w => by simp [unitAt, h x hx]
  unfold unitsAt
  match u with
  | 0 => exact still 1 (by decide) _
  | 1 => rw [still 0 (by decide)]

/-- The work of an arrival up to but not including the turn `k`, when unit `u` alone works and the lanes do nothing. -/
def ArrivalPlan.workUpTo (p : ArrivalPlan) (s0 : State) (u : Fin 2) (k : Nat) : ArrivalWork :=
  if (unitTurn p s0 u).val < k then
    { lanes := LaneWork.start (unitWork p.programme p.delivered[u] u s0).1
      unitEvents := (Vector.replicate 2 []).set u (unitWork p.programme p.delivered[u] u s0).2 }
  else { lanes := LaneWork.start s0, unitEvents := Vector.replicate 2 [] }

section one
variable {p : ArrivalPlan} {s0 : State} {u : Fin 2} (hu : unitActive p s0 u = true)
  (ho : ∀ x, x ≠ u → unitActive p s0 x = false)

/-- The lanes and the reports of the lanes as the unit's work leaves them: untouched. -/
theorem ArrivalPlan.workUpTo_lanes (k : Nat) : (p.workUpTo s0 u k).lanes = LaneWork.start (p.workUpTo s0 u k).lanes.st := by
  unfold ArrivalPlan.workUpTo
  split <;> rfl

theorem ArrivalPlan.workUpTo_lane (k : Nat) (i : Fin 8) : (p.workUpTo s0 u k).lanes.st.lane i = s0.lane i := by
  unfold ArrivalPlan.workUpTo
  split
  · have follows := s0.captureFollows_unitWork p.programme p.delivered[u] u
    exact State.lane_congr (by simp only [LaneWork.start]; rw [follows]) i
  · rfl

include hu ho

theorem unitsAt_workUpTo (turn : Fin 10) :
    unitsAt p s0 turn (p.workUpTo s0 u turn.val) = p.workUpTo s0 u (turn.val + 1) := by
  rw [unitsAt_of_one ho, unitAt, hu, Bool.true_and]
  by_cases hturn : unitTurn p s0 u = turn
  · have now : (unitTurn p s0 u).val < turn.val + 1 := by rw [hturn]; omega
    have before : ¬(unitTurn p s0 u).val < turn.val := by rw [hturn]; omega
    rw [if_pos (by simpa using hturn)]
    simp only [ArrivalPlan.workUpTo, if_pos now, if_neg before]
    rfl
  · have same : (unitTurn p s0 u).val < turn.val ↔ (unitTurn p s0 u).val < turn.val + 1 := by
      have := mt Fin.ext hturn
      omega
    rw [if_neg (by simpa using hturn)]
    simp only [ArrivalPlan.workUpTo, same]

variable (ht : p.triggers = []) (hi : ∀ i, s0.lane i = Lane.idle)
include ht hi

theorem laneAt_workUpTo (i : Fin 8) : laneAt p s0 (p.workUpTo s0 u i.val) i = p.workUpTo s0 u (i.val + 1) := by
  have turn := unitsAt_workUpTo hu ho (i.castLE (by decide))
  simp only [Fin.val_castLE] at turn
  simp only [laneAt, turn, ht]
  rw [laneSteps_of_idle [] ((ArrivalPlan.workUpTo_lane _ i).trans (hi i)), applyTriggers_of_none (by simp)]

/-- The unit's work is the whole of the arrival's work, when neither before nor after it a clip waits to be freed. -/
theorem returnsWork_of_one (hd : s0.doomedUnused = [])
    (hd' : (unitWork p.programme p.delivered[u] u s0).1.doomedUnused = []) :
    returnsWork p s0 = (p.workUpTo s0 u 10, []) := by
  have lanes : lanesWork p s0 = p.workUpTo s0 u 9 :=
    (congrArg (unitsAt p s0 8) (foldl_finRange_of_steps (g := p.workUpTo s0 u) (laneAt_workUpTo hu ho ht hi))).trans
      (unitsAt_workUpTo hu ho 8)
  have nothing : (p.workUpTo s0 u 9).lanes.st.doomedUnused = [] := by
    unfold ArrivalPlan.workUpTo
    split
    · exact hd'
    · exact hd
  simp only [returnsWork, lanes, State.freeDoomed_of_nothing nothing]
  exact congrArg (·, []) (unitsAt_workUpTo hu ho 9)

end one

/-! The frame work -/

/-- A cue that falls due reaches no unit but one that is ARMED (R92). -/
theorem deliveredTo_of_not_armed {v : CaptureUnit} (h : v.state ≠ .armed) (es : List TriggerEntry) :
    deliveredTo es v = false := by
  simp only [deliveredTo, CaptureUnit.awaits, beq_false_of_ne h, Bool.false_and]
  refine List.any_eq_false.mpr fun e _ => ?_
  cases e.kind <;> simp

section frame
variable {s : State} {programme : SampleSet} {word : Option ControlWord} {u : Fin 2}

/-- The unit's work at the arrival that `s` has received with the control word `word`. -/
def State.unitArrival (s : State) (programme : SampleSet) (word : Option ControlWord) (u : Fin 2) : State × List Event :=
  unitWork programme (deliveredTo s.dueEntries (s.unit u)) u (s.emitted word)

/-- The Trigger Unit's part of that arrival (R111 to R113). -/
def State.unitAdmitted (s : State) (programme : SampleSet) (word : Option ControlWord) (u : Fin 2) : State × List Event :=
  admitAll (awaitedAt (arrivalPlan s programme) (s.emitted word) (s.unitArrival programme word u).1) [] (s.actedCues word)
    (s.unitArrival programme word u).1

/-- What that arrival leaves when `line` is the frame it sends: the unit's work, the Trigger Unit's part, the deadline of the
Order Unit, and the reports of these in the order of R187. -/
def State.unitLeaves (s : State) (programme : SampleSet) (word : Option ControlWord) (u : Fin 2) (line : LineFrame) : State :=
  let orders := orderUnitWork none (s.unitAdmitted programme word u).1
  { offerAndDepart s.choices ((arbitrate s word).endsReport s)
      ((s.unitArrival programme word u).2 ++ (s.unitAdmitted programme word u).2 ++ orders.events) orders.st with
    lineOut := line, choices := s.choices + 1 }

theorem State.unitArrival_frame (s : State) (programme : SampleSet) (word : Option ControlWord) (u : Fin 2) :
    let w := (s.unitArrival programme word u).1
    w = { s.emitted word with units := w.units, clips := w.clips, memory := w.memory, freeBlocks := w.freeBlocks } :=
  State.captureFollows_unitWork _ programme _ u

/-- The frame work of an arrival with one unit at work, idle lanes, no trigger for a lane and no order word. -/
theorem frameWork_of_one (hu : (s.unit u).state = .recording ∨ deliveredTo s.dueEntries (s.unit u) = true)
    (ho : ∀ x, x ≠ u → (s.unit x).state = .idle) (ht : s.dueEntries.flatMap (laneDeliveries s) = [])
    (hi : ∀ i, s.lane i = Lane.idle) (hd : (s.emitted word).doomedUnused = [])
    (hd' : (s.unitArrival programme word u).1.doomedUnused = [])
    (hw : ∀ w, word = some w → ¬forOrderUnit s.station w) :
    ∃ line, frameWork programme word s = (s.unitLeaves programme word u line, none) := by
  have unit : ∀ x, (s.emitted word).unit x = s.unit x := State.unit_congr (s.emitted_units word)
  have delivered : ∀ x : Fin 2, (arrivalPlan s programme).delivered[x] = deliveredTo s.dueEntries (s.unit x) := fun x => by
    simp only [arrivalPlan, Fin.getElem_fin, Vector.getElem_ofFn]
  have active : unitActive (arrivalPlan s programme) (s.emitted word) u = true := by
    rw [unitActive, delivered, unit, Bool.or_eq_true, beq_iff_eq]
    exact hu.symm
  have others : ∀ x, x ≠ u → unitActive (arrivalPlan s programme) (s.emitted word) x = false := fun x hx => by
    rw [unitActive, delivered, unit, deliveredTo_of_not_armed (by rw [ho x hx]; nofun), ho x hx]
    rfl
  have work : unitWork programme (arrivalPlan s programme).delivered[u] u (s.emitted word) = s.unitArrival programme word u :=
    congrArg (fun d => unitWork programme d u (s.emitted word)) (delivered u)
  have idle : ∀ i, (s.emitted word).lane i = Lane.idle := fun i => (s.emitted_lane word i).trans (hi i)
  have returns := returnsWork_of_one active others ht idle hd (by rw [← work] at hd'; exact hd')
  have turned : (arrivalPlan s programme).workUpTo (s.emitted word) u 10
      = { lanes := LaneWork.start (s.unitArrival programme word u).1
          unitEvents := (Vector.replicate 2 []).set u (s.unitArrival programme word u).2 } := by
    rw [← work]
    exact if_pos (Fin.isLt _)
  have mixed : setPhases (s.unitArrival programme word u).1 = (s.unitArrival programme word u).1 :=
    setPhases_eq_self fun i r hr => by
      have lane : (s.unitArrival programme word u).1.lane i = Lane.idle := by
        exact (State.lane_congr (by rw [s.unitArrival_frame programme word u]) i).trans (idle i)
      rw [lane] at hr
      cases hr
  have told : ((Vector.replicate 2 ([] : List Event)).set u (s.unitArrival programme word u).2)[0]
      ++ ((Vector.replicate 2 ([] : List Event)).set u (s.unitArrival programme word u).2)[1]
      = (s.unitArrival programme word u).2 := by
    match u with
    | 0 => exact List.append_nil _
    | 1 => rfl
  have handed : word.bind (handedOrderWord s.station) = none := by
    cases word with
    | none => rfl
    | some w => exact (handedOrderWord_eq s.station w).trans (if_neg (hw w rfl))
  rw [turned] at returns
  refine ⟨composeFrame (mixFrame (s.unitArrival programme word u).1 programme) ((arbitrate s word).word s.frameCount), ?_⟩
  cases word <;>
  · simp only [State.emitted] at returns
    simp only [frameWork, returns, LaneWork.start, mixed, handed, List.nil_append]
    rw [told]
    rfl

end frame

end Sys2Proof.Machine
end

section
/-! One unit's work at an arrival, on the station as the arrival finds it, and the arrival that brings it about (R92 to R96,
R134, R135). -/

namespace Sys2Proof.Machine
-- As in the tests, one thread: the whole text is compiled under one limit of memory.
set_option Elab.async false

/-! The start (R92) -/

/-- Unit `u` records at this arrival: it is RECORDING, or the cue it awaits is delivered to it (R93). -/
def State.recordsNow (s : State) (u : Fin 2) (delivered : Bool) : Prop :=
  delivered = false ∧ (s.unit u).state = .recording ∨ delivered = true ∧ (s.unit u).state = .armed

/-- What the unit reports of its start (R92). -/
def State.startReport (s : State) (u : Fin 2) (c : Nat) : List Event :=
  if (s.unit u).state = .armed then [.captureStarted u c] else []

/-- `b` holds what `s` holds with unit `u` RECORDING into clip `c`, which is FILLING (R92). -/
def State.recording (s b : State) (u : Fin 2) (c : Nat) : Prop :=
  sparseSorted b.clips = true
    ∧ (∀ y, b.unit y = if y = u then { s.unit u with state := .recording, cue := none } else s.unit y)
    ∧ (∀ d, b.clip d = if d = c then { s.clip c with state := .filling } else s.clip d)
    ∧ b.freeBlocks = s.freeBlocks ∧ b.memory = s.memory

section work
variable {s b : State} {u : Fin 2} {c : Fin 512} {slot : Fin 16} {delivered : Bool} (hs : sparseSorted s.clips = true)
  (hcap : s.captureSound) (hclip : (s.unit u).clip = some c) (hslot : (s.unit u).slot = some slot)
  (hd : s.recordsNow u delivered)

include hs hcap hclip hd in
/-- A unit that records at this arrival has started, now or before. -/
theorem startIf_recording : s.recording (startIf delivered u s).1 u c.val
    ∧ (startIf delivered u s).2 = s.startReport u c.val := by
  have number := CaptureUnit.clipNumber_of_clip hclip
  rcases hd with ⟨rfl, recording⟩ | ⟨rfl, armed⟩
  · have own : s.unit u = { s.unit u with state := .recording, cue := none }
        ∧ s.clip c.val = { s.clip c.val with state := .filling } := by
      rcases hcap.2.1 u with idle | ⟨d, hd, -, -, -, -, ⟨armed, -⟩ | ⟨-, filling, cue⟩⟩
      · rw [idle] at recording; cases recording
      · rw [recording] at armed; cases armed
      · obtain rfl := Option.some.inj (hclip.symm.trans hd)
        rw [← recording, ← cue, ← filling]
        exact ⟨rfl, rfl⟩
    refine ⟨⟨hs, fun y => ?_, fun d => ?_, rfl, rfl⟩, ?_⟩
    · split
      · rename_i hy; rw [hy]; exact own.1
      · rfl
    · split
      · rename_i hd; rw [hd]; exact own.2
      · rfl
    · rw [State.startReport, recording]
      rfl
  · obtain ⟨units, clips⟩ := startUnit_spec hs u
    rw [number] at clips
    refine ⟨⟨State.sorted_setClip (s := s.setUnit u _) hs _ _, units, fun d => (clips d).trans ?_, rfl, rfl⟩, ?_⟩
    · split
      · rename_i hd; rw [hd]
      · rfl
    · rw [State.startReport, if_pos armed, ← number]
      rfl

/-- Starting does not change what a unit fills. -/
theorem State.recording.fills (hb : s.recording b u c.val) (hf : s.fills u c slot) : b.fills u c slot := by
  obtain ⟨-, units, clips, -, -⟩ := hb
  obtain ⟨hclip, hslot, hlen, hchain⟩ := hf
  have unit := (units u).trans (if_pos rfl)
  have clip := (clips c.val).trans (if_pos rfl)
  refine ⟨?_, ?_, ?_, ?_⟩
  · rw [unit]; exact hclip
  · rw [unit]; exact hslot
  · rw [unit, clip]; exact hlen
  · rw [unit, clip]; exact hchain

/-- The work of a unit that has started is its write (R93). -/
theorem unitWork_of_recording (hb : s.recording (startIf delivered u s).1 u c.val) (programme : SampleSet) :
    unitWork programme delivered u s = ((writeUnit programme u (startIf delivered u s).1).1,
      (startIf delivered u s).2 ++ (writeUnit programme u (startIf delivered u s).1).2) := by
  obtain ⟨-, units, -⟩ := hb
  have recording : ((startIf delivered u s).1.unit u).state = .recording := by rw [units, if_pos rfl]
  exact if_pos recording

/-- `t` holds what a unit leaves of an arrival at which it records the sample `x` into clip `c` (R92 to R95). -/
def State.recorded (s t : State) (u : Fin 2) (c : Nat) (x : Sample) : Prop :=
  let v := s.unit u
  let q := v.written
  t.unit u = (if q + 1 = v.wanted then CaptureUnit.idle else { v with state := .recording, cue := none, written := q + 1 })
    ∧ (∀ y, y ≠ u → t.unit y = s.unit y)
    ∧ t.clip c = (if q + 1 = v.wanted then
        { s.clip c with state := .ready, length := q + 1, chain := s.chainFor u c, filler := none, short := false }
        else { s.clip c with state := .filling, length := q + 1, chain := s.chainFor u c })
    ∧ (∀ d, d ≠ c → t.clip d = s.clip d)
    ∧ t.freeBlocks = (if q % 256 = 0 then s.freeBlocks.drop 1 else s.freeBlocks)
    ∧ t.readClipSample c q = x
    ∧ ∀ a, a ≠ sampleAddress ((s.chainFor u c).getD (q / 256) 0) (q % 256) → Memory.read t.memory a = Memory.read s.memory a

/-- `t` holds what a unit leaves of an arrival at which it finds no block for its sample (R96). -/
def State.ranOut (s t : State) (u : Fin 2) (c : Nat) : Prop :=
  t.unit u = CaptureUnit.idle ∧ (∀ y, y ≠ u → t.unit y = s.unit y)
    ∧ t.clip c = (if (s.unit u).written = 0 then Clip.freed
        else { s.clip c with state := .ready, filler := none, short := true })
    ∧ (∀ d, d ≠ c → t.clip d = s.clip d) ∧ t.freeBlocks = [] ∧ t.memory = s.memory

/-- What a started unit writes is what the unit records. -/
theorem State.recording.recorded {t : State} {x : Sample} (hb : s.recording b u c.val) (hw : b.wroteSample t u c.val x) :
    s.recorded t u c.val x := by
  have back := hw.readBack
  obtain ⟨-, units, clips, blocks, memory⟩ := hb
  obtain ⟨unit, clip, free, mem⟩ := hw
  have own := (units u).trans (if_pos rfl)
  have ownClip := (clips c.val).trans (if_pos rfl)
  have chain : b.chainFor u c.val = s.chainFor u c.val := by simp only [State.chainFor, own, ownClip, blocks]
  simp only [chain, own, ownClip, blocks, memory] at unit clip free mem back
  refine ⟨(unit u).trans (if_pos rfl), fun y hy => ?_, (clip c.val).trans (if_pos rfl), fun d hd => ?_, free, back,
    fun a ha => (mem a).trans (if_neg ha)⟩
  · rw [unit, if_neg hy, units, if_neg hy]
  · rw [clip, if_neg hd, clips, if_neg hd]

include hs hcap hclip hslot hd

theorem unitWork_of_room (programme : SampleSet) (hroom : (s.unit u).written % 256 = 0 → s.freeBlocks ≠ []) :
    s.recorded (unitWork programme delivered u s).1 u c.val programme[slot]
      ∧ (unitWork programme delivered u s).2 = s.startReport u c.val
          ++ if (s.unit u).written + 1 = (s.unit u).wanted then [.captureDone u c.val (s.unit u).wanted .complete] else [] := by
  obtain ⟨started, told⟩ := startIf_recording hs hcap hclip hd
  have fills := started.fills (hcap.fills hclip hslot)
  rw [unitWork_of_recording started, told]
  generalize (startIf delivered u s).1 = b at *
  have own := (started.2.1 u).trans (if_pos rfl)
  have blocks := started.2.2.2.1
  obtain ⟨wrote, done⟩ := writeUnit_of_room started.1 fills programme (by rw [own, blocks]; exact hroom)
  rw [own] at done
  exact ⟨started.recorded wrote, congrArg (s.startReport u c.val ++ ·) done⟩

theorem unitWork_of_full (programme : SampleSet) (hq : (s.unit u).written % 256 = 0) (hfree : s.freeBlocks = []) :
    s.ranOut (unitWork programme delivered u s).1 u c.val
      ∧ (unitWork programme delivered u s).2
        = s.startReport u c.val ++ [.captureDone u c.val (s.unit u).written .storeFull] := by
  obtain ⟨started, told⟩ := startIf_recording hs hcap hclip hd
  have fills := started.fills (hcap.fills hclip hslot)
  rw [unitWork_of_recording started, told]
  generalize (startIf delivered u s).1 = b at *
  obtain ⟨sorted, units, clips, blocks, memory⟩ := started
  have own := (units u).trans (if_pos rfl)
  have ownClip := (clips c.val).trans (if_pos rfl)
  have empty : (b.unit u).written = 0 → (b.clip c.val).chain = [] := fun h0 =>
    List.length_eq_zero_iff.mp (fills.2.2.2.trans (by rw [h0]; rfl))
  obtain ⟨idle, short, free, mem, done⟩ := endCaptureShort_spec sorted .storeFull fills.1 empty
  rw [writeUnit_of_full fills programme (by rw [own]; exact hq) (blocks.trans hfree)]
  simp only [own, ownClip, clips] at short done
  refine ⟨⟨(idle u).trans (if_pos rfl), fun y hy => ?_, (short c.val).trans (if_pos rfl), fun d hd => ?_,
    free.trans (blocks.trans hfree), mem.trans memory⟩, congrArg (s.startReport u c.val ++ ·) done⟩
  · rw [idle, if_neg hy, units, if_neg hy]
  · rw [short, if_neg hd, if_neg hd]

end work

/-! The arrival -/

/-- Only the capture units and the Clip Store say whether a unit has recorded. -/
theorem State.recorded.congr {e s t t' : State} {u : Fin 2} {c : Nat} {x : Sample} (h : e.recorded t u c x)
    (hu : e.units = s.units) (hc : e.clips = s.clips) (hf : e.freeBlocks = s.freeBlocks) (hm : e.memory = s.memory)
    (hu' : t'.units = t.units) (hc' : t'.clips = t.clips) (hf' : t'.freeBlocks = t.freeBlocks) (hm' : t'.memory = t.memory) :
    s.recorded t' u c x := by
  simp only [State.recorded, State.chainFor, State.readClipSample, State.sampleAt, State.unit_congr hu, State.clip_congr hc,
    hf, hm] at h
  simpa only [State.recorded, State.chainFor, State.readClipSample, State.sampleAt, State.unit_congr hu', State.clip_congr hc',
    hf', hm'] using h

theorem State.ranOut.congr {e s t t' : State} {u : Fin 2} {c : Nat} (h : e.ranOut t u c) (hu : e.units = s.units)
    (hc : e.clips = s.clips) (hm : e.memory = s.memory) (hu' : t'.units = t.units) (hc' : t'.clips = t.clips)
    (hf' : t'.freeBlocks = t.freeBlocks) (hm' : t'.memory = t.memory) : s.ranOut t' u c := by
  simp only [State.ranOut, State.unit_congr hu, State.clip_congr hc, hm] at h
  simpa only [State.ranOut, State.unit_congr hu', State.clip_congr hc', hf', hm'] using h

/-- No report leaves at an arrival that keeps them all (R187). -/
theorem endsReport_of_no_departure {s : State} (hb : s.reportsBounded) (word : Option ControlWord)
    (h : (s.slotOutcome s.frameCount word).2.2.1 = s.reports) : (arbitrate s word).endsReport s = false := by
  obtain ⟨-, ⟨stays, -⟩ | ⟨-, some, gone, -⟩⟩ := arbitrate_agrees hb word
  · exact stays
  · exact absurd (eq_nil_of_tail_eq_self (gone.symm.trans h)) some

/-- Whatever a unit does with its one clip, it leaves no clip to be freed when none was there. -/
theorem doomedUnused_of_one_clip {s t : State} (hs : sparseSorted s.clips = true) (ht : sparseSorted t.clips = true)
    (hd : s.doomedUnused = []) {c : Nat} (others : ∀ d, d ≠ c → t.clip d = s.clip d) (own : (t.clip c).state ≠ .doomed) :
    t.doomedUnused = [] := by
  refine List.eq_nil_iff_forall_not_mem.mpr fun d hmem => ?_
  obtain ⟨doomed, unused⟩ := (State.mem_doomedUnused ht d).mp hmem
  by_cases h : d = c
  · exact own (h ▸ doomed)
  · rw [others d h] at doomed unused
    have : d ∈ s.doomedUnused := (State.mem_doomedUnused hs d).mpr ⟨doomed, unused⟩
    rw [hd] at this
    cases this

theorem State.recorded.not_doomed {s t : State} {u : Fin 2} {c : Nat} {x : Sample} (h : s.recorded t u c x) :
    (t.clip c).state ≠ .doomed := by
  obtain ⟨-, -, clip, -⟩ := h
  rw [clip]
  split <;> nofun

theorem State.ranOut.not_doomed {s t : State} {u : Fin 2} {c : Nat} (h : s.ranOut t u c) : (t.clip c).state ≠ .doomed := by
  obtain ⟨-, -, clip, -⟩ := h
  rw [clip]
  split <;> nofun

/-- Nothing but the capture of unit `u` happens at the arrival that `s` has received: its word brings no cue, no deadline is
met, and no report leaves. -/
def State.alone (s : State) (word : Option ControlWord) : Prop :=
  (∀ w, word = some w → ¬actsOnCue s.station w) ∧ (∀ a, s.assembly = some a → s.frameCount ≠ a.start + 2048)
    ∧ (s.slotOutcome s.frameCount word).2.2.1 = s.reports

section leaves
variable (s : State) (programme : SampleSet) (word : Option ControlWord) (u : Fin 2) (line : LineFrame)

/-- The store and the units see nothing of the arrival but the unit's work (R93). -/
theorem State.unitLeaves_store :
    let w := (s.unitArrival programme word u).1
    let t := s.unitLeaves programme word u line
    t.units = w.units ∧ t.clips = w.clips ∧ t.freeBlocks = w.freeBlocks ∧ t.memory = w.memory := by
  have admitted : (s.unitAdmitted programme word u).1 = { (s.unitArrival programme word u).1 with
      triggers := (s.unitAdmitted programme word u).1.triggers, cueOut := (s.unitAdmitted programme word u).1.cueOut } :=
    admitAll_frame ..
  have ordered := orderUnitWork_frame none (s.unitAdmitted programme word u).1
  simp only [State.unitLeaves]
  refine ⟨?_, ?_, ?_, ?_⟩ <;> rw [offerAndDepart_frame, ordered, admitted]

/-- When nothing else happens, the due entries are gone and the reports are those of the unit (R114, R187). -/
theorem State.unitLeaves_alone (hb : s.reportsBounded) (h : s.alone word) :
    (s.unitLeaves programme word u line).triggers = s.dropDue.triggers
      ∧ (s.unitLeaves programme word u line).reportsAfter s (s.unitArrival programme word u).2 := by
  obtain ⟨silent, deadline, stays⟩ := h
  have frame := s.unitArrival_frame programme word u
  rw [State.emitted_frame] at frame
  have cues : s.actedCues word = [] := by
    cases word with
    | none => rfl
    | some x => exact (actedCue_eq s.station x).trans (if_neg (silent x rfl))
  have admitted : s.unitAdmitted programme word u = ((s.unitArrival programme word u).1, []) := by
    rw [State.unitAdmitted, cues, admitAll_nil]
  have orders : orderUnitWork none (s.unitArrival programme word u).1
      = { st := (s.unitArrival programme word u).1, events := [], complete := none } := by
    refine orderUnitWork_of_nothing ?_
    rw [frame]
    exact deadline
  have same : s.SameReports (s.unitArrival programme word u).1 := by rw [frame]; exact ⟨rfl, rfl, rfl⟩
  simp only [State.unitLeaves, admitted, orders, endsReport_of_no_departure hb word stays, offerAndDepart_of_stays,
    List.append_nil]
  refine ⟨(State.offerEvents_triggers ..).trans ?_, same.offerEvents _⟩
  rw [frame]

end leaves

/-! FRAME_ARRIVAL with one unit at work -/

section arrival
variable {s : State} {line : LineFrame} {u : Fin 2} {c : Fin 512} {slot : Fin 16} {samples : SampleSet}
  {word : Option ControlWord} {run : Nat}

/-- The store and the units as the work of an arrival finds them are those of the station before it. -/
theorem State.emitted_received_store (s : State) (samples : SampleSet) (run : Nat) (word : Option ControlWord) :
    let e := (s.received samples run).emitted word
    e.units = s.units ∧ e.clips = s.clips ∧ e.freeBlocks = s.freeBlocks ∧ e.memory = s.memory := by
  simp only
  refine ⟨?_, ?_, ?_, ?_⟩ <;> rw [State.emitted_frame] <;> rfl

/-- Unmapped cues bring the lanes no trigger (R115). -/
theorem laneDeliveries_of_unmapped
    (hq : ∀ e ∈ s.triggers, e.fallsDue s.frameCount = true → ∃ n, e.kind = .cue n ∧ n ∉ s.cueMap.map CueMapEntry.cue) :
    s.dueEntries.flatMap (laneDeliveries s) = [] := by
  refine List.flatMap_eq_nil_iff.mpr fun e he => ?_
  obtain ⟨mem, due⟩ := List.mem_filter.mp he
  obtain ⟨n, kind, unmapped⟩ := hq e mem due
  simp only [laneDeliveries, kind, (mapped_eq_none_iff s n).mpr unmapped]

/-- A unit that is RECORDING, or that a due entry brings its awaited cue, records at the arrival (R92, R93). -/
theorem State.recordsNow_of_due (hr : (s.unit u).state = .recording
      ∨ (s.unit u).state = .armed
        ∧ ∃ e ∈ s.triggers, e.fallsDue s.frameCount = true ∧ ∃ n, e.kind = .cue n ∧ (s.unit u).cue = some n) :
    s.recordsNow u (deliveredTo s.dueEntries (s.unit u)) := by
  rcases hr with recording | ⟨armed, e, mem, due, n, kind, cue⟩
  · exact .inl ⟨deliveredTo_of_not_armed (by rw [recording]; nofun) _, recording⟩
  · refine .inr ⟨List.any_eq_true.mpr ⟨e, List.mem_filter.mpr ⟨mem, due⟩, ?_⟩, armed⟩
    simp only [kind]
    exact (CaptureUnit.awaits_iff ..).mpr ⟨armed, cue⟩

/-- FRAME_ARRIVAL when unit `u` alone has work to do and leaves its clip `c` not DOOMED, the others as they were. -/
theorem exec_frameArrival_of_one (hs : s.Sound) (hl : s.lock = .locked) (hi : ∀ i, s.lane i = Lane.idle)
    (ho : ∀ x, x ≠ u → s.unit x = CaptureUnit.idle)
    (hq : ∀ e ∈ s.triggers, e.fallsDue (s.frameCount + 1) = true →
      ∃ n, e.kind = .cue n ∧ n ∉ s.cueMap.map CueMapEntry.cue)
    (hr : (s.received samples run).recordsNow u (deliveredTo (s.received samples run).dueEntries (s.unit u)))
    (ht : s.takes line samples word run) (hw : ∀ w, word = some w → ¬forOrderUnit s.station w)
    (others : ∀ d, d ≠ c.val → ((s.received samples run).unitArrival samples word u).1.clip d = s.clip d)
    (own : (((s.received samples run).unitArrival samples word u).1.clip c.val).state ≠ .doomed) :
    ∃ out, exec (.frameArrival line) s = .next ((s.received samples run).unitLeaves samples word u out) := by
  obtain ⟨-, clips, -, memory⟩ := s.emitted_received_store samples run word
  have store : ((s.received samples run).emitted word).storeCanonical :=
    State.storeCanonical_congr memory clips hs.canonical.store
  have sorted := (storeCanonical_unitWork store samples
    (deliveredTo (s.received samples run).dueEntries (s.unit u)) u).2.1
  have still : s.doomedUnused = [] := hs.doomedUnused rfl
  obtain ⟨out, work⟩ := frameWork_of_one (s := s.received samples run) (programme := samples) (word := word) (u := u)
    (hr.imp And.right And.left) (fun x hx => congrArg CaptureUnit.state (ho x hx)) (laneDeliveries_of_unmapped hq) hi
    (hs.doomedUnused clips) (doomedUnused_of_one_clip hs.canonical.2.2.1 sorted still others own) hw
  exact ⟨out, by rw [exec_frameArrival_of_takes hl ht (by rw [work]), work]⟩

end arrival

/-- Settles O43: the unit's work on the station as the arrival finds it (`unitWork_of_room`, `unitWork_of_full`), which is all
that the arrival makes of the store and the units. -/
theorem arrivalRecordsOneSample : Obligations.ArrivalRecordsOneSample := by
  intro s line u c slot samples word f v hs locked idle others due records hclip hslot frame words q chain started alone
  obtain ⟨run, takes⟩ : ∃ run, s.takes line samples word run := by
    rcases frame with ⟨good, rfl, rfl⟩ | ⟨bad, few, rfl, rfl⟩
    · exact ⟨0, .inl ⟨good, rfl, rfl, rfl⟩⟩
    · exact ⟨s.badRun + 1, .inr ⟨bad, few, rfl, rfl, rfl⟩⟩
  have now := State.recordsNow_of_due (s := s.received samples run) records
  obtain ⟨units, clips, blocks, memory⟩ := s.emitted_received_store samples run word
  have unit : ((s.received samples run).emitted word).unit u = s.unit u := State.unit_congr units u
  have told : ((s.received samples run).emitted word).startReport u c.val = started := by
    rw [State.startReport, unit]
  have sorted : sparseSorted ((s.received samples run).emitted word).clips = true := clips ▸ hs.canonical.2.2.1
  have sound : ((s.received samples run).emitted word).captureSound := by
    rw [State.emitted_frame]; exact hs.capture
  have nowEmitted : ((s.received samples run).emitted word).recordsNow u
      (deliveredTo (s.received samples run).dueEntries (s.unit u)) := by
    rw [State.recordsNow, unit]; exact now
  have arrives := exec_frameArrival_of_one (c := c) hs locked idle others due now takes words
  have silent : ∀ out, alone → ((s.received samples run).unitLeaves samples word u out).triggers
        = s.triggers.filter (fun e => !e.fallsDue (s.frameCount + 1))
      ∧ ((s.received samples run).unitLeaves samples word u out).reportsAfter s
        ((s.received samples run).unitArrival samples word u).2 := fun out h => by
    obtain ⟨triggers, reports⟩ :=
      (s.received samples run).unitLeaves_alone samples word u out hs.reports h
    exact ⟨triggers, State.reportsAfter.of_same reports ⟨rfl, rfl, rfl⟩⟩
  refine ⟨fun room => ?_, fun hq hfree => ?_⟩
  · obtain ⟨recorded, events⟩ := unitWork_of_room sorted sound (by rw [unit]; exact hclip) (by rw [unit]; exact hslot)
      nowEmitted samples (by rw [unit, blocks]; exact room)
    rw [unit, told] at events
    obtain ⟨-, -, -, kept, -⟩ := id recorded
    obtain ⟨out, ran⟩ := arrives (fun d hd => (kept d hd).trans (State.clip_congr clips d)) recorded.not_doomed
    obtain ⟨units', clips', blocks', memory'⟩ := (s.received samples run).unitLeaves_store samples word u out
    obtain ⟨own, others', clip, clips'', free, back, mem⟩ :=
      State.recorded.congr recorded units clips blocks memory units' clips' blocks' memory'
    exact ⟨_, ran, own, others', clip, clips'', free, back, mem, fun h => events ▸ silent out h⟩
  · obtain ⟨ranOut, events⟩ := unitWork_of_full sorted sound (by rw [unit]; exact hclip) (by rw [unit]; exact hslot)
      nowEmitted samples (by rw [unit]; exact hq) (blocks.trans hfree)
    rw [unit, told] at events
    obtain ⟨-, -, -, kept, -⟩ := id ranOut
    obtain ⟨out, ran⟩ := arrives (fun d hd => (kept d hd).trans (State.clip_congr clips d)) ranOut.not_doomed
    obtain ⟨units', clips', blocks', memory'⟩ := (s.received samples run).unitLeaves_store samples word u out
    obtain ⟨own, others', clip, clips'', free, mem⟩ :=
      State.ranOut.congr ranOut units clips memory units' clips' blocks' memory'
    exact ⟨_, ran, own, others', clip, clips'', free, mem, fun h => events ▸ silent out h⟩

end Sys2Proof.Machine
end

section
/-! The lanes' work beside capture units that start at the same arrival: it is what it would be without them (R92, R115). -/

namespace Sys2Proof.Machine
-- As in the tests, one thread: the whole text is compiled under one limit of memory.
set_option Elab.async false

/-! Two rows of lane work that differ in clips which no lane can load -/

/-- A MISSED CUE of lane `i` that names no cue, as a TAKE raises it, with the cue number that a mapped cue puts there
(R36, R116). -/
def Event.namingCue (cue : Fin 4096) (i : Fin 8) (x : Event) : Event :=
  if x = .missedCue 0 (some i) then .missedCue cue (some i) else x

/-- `w'` is the lanes' work `w` with other capture units and with the clips `cs`, RESERVED in `w`, FILLING; a MISSED CUE of
lane `i` names `cue` in `w'`. -/
structure LaneWork.Beside (cs : List Nat) (cue : Fin 4096) (i : Fin 8) (w w' : LaneWork) : Prop where
  frame : w'.st = { w.st with units := w'.st.units, clips := w'.st.clips }
  sorted : sparseSorted w.st.clips = true
  sorted' : sparseSorted w'.st.clips = true
  clip : ∀ c, w'.st.clip c = if c ∈ cs then { w.st.clip c with state := .filling } else w.st.clip c
  reserved : ∀ c ∈ cs, (w.st.clip c).state = .reserved
  reports : w'.reports = w.reports.map (Event.namingCue cue i)
  endCues : w'.endCues = w.endCues

section beside
variable {cs : List Nat} {cue : Fin 4096} {i : Fin 8} {w w' : LaneWork} (h : LaneWork.Beside cs cue i w w')
include h

namespace LaneWork.Beside

theorem lanes : w'.st.lanes = w.st.lanes := by rw [h.frame]
theorem slots : w'.st.slots = w.st.slots := by rw [h.frame]
theorem lane (j : Fin 8) : w'.st.lane j = w.st.lane j := State.lane_congr h.lanes j

theorem length (c : Nat) : (w'.st.clip c).length = (w.st.clip c).length := by
  rw [h.clip]
  split <;> rfl

/-- In every state but RESERVED and FILLING a clip is on both sides or on neither. -/
theorem state_eq_iff {x : ClipState} (hr : x ≠ .reserved) (hf : x ≠ .filling) (c : Nat) :
    (w'.st.clip c).state = x ↔ (w.st.clip c).state = x := by
  rw [h.clip]
  split
  · rename_i hc
    rw [h.reserved c hc]
    exact iff_of_false hf.symm hr.symm
  · exact Iff.rfl

theorem effectiveLength (r : Record) : effectiveLength w'.st r = effectiveLength w.st r := by
  simp only [Machine.effectiveLength, h.length]

/-- A load asks of a clip whether it is READY, and its length, and so fails at a RESERVED clip and at a FILLING one (R25). -/
theorem loadTest (j : Fin 8) (index : Fin 256) : loadTest w'.st j index = loadTest w.st j index := by
  have record : w'.st.record index.val = w.st.record index.val := by rw [h.frame]; rfl
  have ready : ∀ c, ((w'.st.clip c).state != .ready) = ((w.st.clip c).state != .ready) := fun c => by
    rw [Bool.eq_iff_iff, bne_iff_ne, bne_iff_ne, ne_eq, ne_eq, h.state_eq_iff (x := .ready) nofun nofun]
  simp only [Machine.loadTest, record, ready, h.effectiveLength, h.slots]

/-- Lane work on either side that leaves the same lanes and slots leaves the same of all but units and clips. -/
theorem frame_of_follows {v v' : LaneWork} (hv : w.Follows v) (hv' : w'.Follows v') (lanes : v'.st.lanes = v.st.lanes)
    (slots : v'.st.slots = v.st.slots) : v'.st = { v.st with units := v'.st.units, clips := v'.st.clips } := by
  have left := hv.1
  have right := hv'.1
  rw [right, lanes, slots, left, h.frame]

theorem setLane (j : Fin 8) (l : Lane) : (w.setLane j l).Beside cs cue i (w'.setLane j l) := by
  refine ⟨?_, h.sorted, h.sorted', h.clip, h.reserved, h.reports, h.endCues⟩
  refine h.frame_of_follows (w.follows_setLane j l) (w'.follows_setLane j l) ?_ h.slots
  simp only [LaneWork.setLane, State.setLane, h.lanes]

theorem report {es es' : List Event} (he : es' = es.map (Event.namingCue cue i)) :
    (w.report es).Beside cs cue i (w'.report es') := by
  refine ⟨h.frame, h.sorted, h.sorted', h.clip, h.reserved, ?_, h.endCues⟩
  simp only [LaneWork.report, h.reports, he, List.map_append]

/-- The claims of a record given back on either side (R29). -/
theorem ended (j : Fin 8) (r : Record) {es : List Event} (he : es.map (Event.namingCue cue i) = es) (cues : List EndCue) :
    LaneWork.Beside cs cue i
      { st := releaseClaims j r w.st, reports := w.reports ++ es, endCues := w.endCues ++ cues }
      { st := releaseClaims j r w'.st, reports := w'.reports ++ es, endCues := w'.endCues ++ cues } := by
  obtain ⟨sorted, lanes, slots, clips⟩ := releaseClaims_spec h.sorted j r
  obtain ⟨sorted', lanes', slots', clips'⟩ := releaseClaims_spec h.sorted' j r
  refine ⟨?_, sorted, sorted', fun c => ?_, fun c hc => ?_, ?_, ?_⟩
  · refine h.frame_of_follows (w.follows_ended j r es cues) (w'.follows_ended j r es cues) (State.lanes_ext fun k => ?_)
      (Vector.ext fun k hk => ?_)
    · simp only [lanes, lanes', h.lane]
    · exact (slots' ⟨k, hk⟩).trans ((by rw [h.lane, h.slots] : _ = _).trans (slots ⟨k, hk⟩).symm)
  · simp only [clips, clips', h.clip]
    split <;> rfl
  · simp only [clips]
    exact h.reserved c hc
  · simp only [h.reports, List.map_append, he]
  · simp only [h.endCues]

theorem commitLoad (j : Fin 8) (index : Fin 256) (r : Record) :
    (commitLoad j index r w).Beside cs cue i (commitLoad j index r w') := by
  obtain ⟨sorted, lanes, slots, clips, reports, cues⟩ := commitLoad_spec h.sorted j index r
  obtain ⟨sorted', lanes', slots', clips', reports', cues'⟩ := commitLoad_spec h.sorted' j index r
  refine ⟨?_, sorted, sorted', fun c => ?_, fun c hc => ?_, ?_, ?_⟩
  · refine h.frame_of_follows (w.follows_commitLoad j index r) (w'.follows_commitLoad j index r)
      (State.lanes_ext fun k => ?_) (Vector.ext fun k hk => ?_)
    · rw [lanes, lanes', h.lane, h.effectiveLength]
    · exact (slots' ⟨k, hk⟩).trans ((by rw [h.slots] : _ = _).trans (slots ⟨k, hk⟩).symm)
  · simp only [clips, clips', h.clip]
    split <;> rfl
  · simp only [clips]
    exact h.reserved c hc
  · rw [reports, reports', h.reports, List.map_append]
    split <;> rfl
  · rw [cues, cues', h.endCues]

theorem loadRecord (j : Fin 8) (index : Fin 256) : (loadRecord j index w).Beside cs cue i (loadRecord j index w') := by
  cases hl : Machine.loadTest w.st j index with
  | ok r =>
    rw [loadRecord_of_ok hl, loadRecord_of_ok ((h.loadTest j index).trans hl)]
    exact h.commitLoad j index r
  | error reason =>
    rw [loadRecord_of_error hl, loadRecord_of_error ((h.loadTest j index).trans hl)]
    exact (h.setLane j Lane.idle).report rfl

theorem endRecord (j : Fin 8) : (endRecord j w).Beside cs cue i (endRecord j w') := by
  cases hr : (w.st.lane j).copy with
  | none =>
    have hr' : (w'.st.lane j).copy = none := by rw [h.lane, hr]
    simp only [Machine.endRecord, hr, hr']
    exact h
  | some r =>
    have told : (endReport j (w.st.lane j) r (w.st.lane j).mark.reason).map (Event.namingCue cue i)
        = endReport j (w.st.lane j) r (w.st.lane j).mark.reason := by
      unfold endReport
      split <;> rfl
    have returned := h.ended j r told (handedEndCue (w.st.lane j) r)
    simp only [Machine.endRecord, h.lane, hr]
    split
    · exact returned.loadRecord j _
    · split
      · exact returned.loadRecord j _
      · exact returned.setLane j Lane.idle

theorem superseded (j : Fin 8) (l : Lane) :
    (w.report (supersededReport j l)).Beside cs cue i (w'.report (supersededReport j l)) := by
  refine h.report ?_
  unfold supersededReport
  split <;> rfl

theorem cutTrigger (t : LaneTrigger) (cue' : Fin 4096) (j : Fin 8) :
    (cutTrigger j t w).Beside cs cue i (cutTrigger j { t with cue := cue' } w') := by
  cases hr : (w.st.lane j).copy with
  | none =>
    have hr' : (w'.st.lane j).copy = none := by rw [h.lane, hr]
    simp only [Machine.cutTrigger, hr, hr']
    exact h
  | some r =>
    have cut := (h.superseded j (w.st.lane j)).setLane j ((w.st.lane j).afterCut r t.record)
    rw [cutTrigger_of_copy hr, cutTrigger_of_copy (r := r) (by rw [h.lane, hr]), h.lane]
    dsimp only
    split
    · exact cut.endRecord j
    · exact cut

/-- A trigger meets its lane: the cue number of the trigger is what a MISSED CUE names (R34, R36). -/
theorem applyTrigger {t : LaneTrigger} (ht : t.cue = 0) :
    (applyTrigger i w t).Beside cs cue i (applyTrigger i w' { t with cue := cue }) := by
  simp only [Machine.applyTrigger, h.lane]
  split
  · split
    · simp only [queueTrigger, h.lane]
      split
      · exact h.setLane i _
      · exact h.report (by simp [Event.namingCue, ht])
    · exact h.cutTrigger t cue i
    · exact h
  · exact h.loadRecord i t.record

end LaneWork.Beside

end beside

end Sys2Proof.Machine
end

section
/-! TRIGGER_FALLS_DUE: the units that a due cue starts, and the lanes' work beside them (R92, R114 to R116). -/

namespace Sys2Proof.Machine
-- As in the tests, one thread: the whole text is compiled under one limit of memory.
set_option Elab.async false

/-! What follows the lanes' work -/

/-- Lanes' work that hands on no end cue is followed by the freed clips and the reports (R76, R187). -/
theorem finishLanes_of_no_end_cue {w : LaneWork} (hc : w.endCues = []) (es : List Event) :
    finishLanes es w = w.st.freeDoomed.1.offerEvents (w.reports ++ w.st.freeDoomed.2 ++ es) := by
  simp only [finishLanes, hc, admitAll_nil, List.append_nil]

theorem Event.namingCue_clipFreed (cue : Fin 4096) (i : Fin 8) (cs : List Nat) :
    (cs.map Event.clipFreed).map (Event.namingCue cue i) = cs.map Event.clipFreed := by
  rw [List.map_map]
  rfl

section beside
variable {cs : List Nat} {cue : Fin 4096} {i : Fin 8} {w w' : LaneWork} (h : LaneWork.Beside cs cue i w w')
include h

theorem LaneWork.Beside.doomedUnused : w'.st.doomedUnused = w.st.doomedUnused := by
  refine (pairwise_lt_filter_fst h.sorted' _).eq_of_mem_iff (pairwise_lt_filter_fst h.sorted _) fun c => ?_
  show c ∈ w'.st.doomedUnused ↔ c ∈ w.st.doomedUnused
  have uses : (w'.st.clip c).uses = (w.st.clip c).uses := by rw [h.clip]; split <;> rfl
  rw [State.mem_doomedUnused h.sorted', State.mem_doomedUnused h.sorted, h.state_eq_iff (x := .doomed) nofun nofun, uses]

/-- The clips freed on either side are the same, and so are the blocks they return (R67, R76). -/
theorem LaneWork.Beside.freeDoomed :
    w'.st.freeDoomed.2 = w.st.freeDoomed.2
      ∧ (∀ c, w'.st.freeDoomed.1.clip c
          = if c ∈ cs then { w.st.freeDoomed.1.clip c with state := .filling } else w.st.freeDoomed.1.clip c)
      ∧ w'.st.freeDoomed.1 = { w.st.freeDoomed.1 with units := w'.st.units, clips := w'.st.freeDoomed.1.clips } := by
  have chain : ∀ c, (w'.st.clip c).chain = (w.st.clip c).chain := fun c => by rw [h.clip]; split <;> rfl
  have list : w'.st.freeBlocks = w.st.freeBlocks := by rw [h.frame]
  have distinct : w.st.doomedUnused.Nodup := (pairwise_lt_filter_fst h.sorted _).imp Nat.ne_of_lt
  have blocks : w'.st.freeDoomed.1.freeBlocks = w.st.freeDoomed.1.freeBlocks := by
    simp only [State.freeDoomed]
    rw [State.freeBlocks_freeClips h.sorted' (h.doomedUnused ▸ distinct), State.freeBlocks_freeClips h.sorted distinct,
      h.doomedUnused, list]
    simp only [chain]
  obtain ⟨-, freed, -⟩ := State.freeDoomed_spec h.sorted
  obtain ⟨-, freed', -⟩ := State.freeDoomed_spec h.sorted'
  refine ⟨by simp only [State.freeDoomed, h.doomedUnused], fun c => ?_, ?_⟩
  · rw [freed, freed', h.clip]
    split
    · rename_i hc
      rw [if_neg (by simp), if_neg (by simp [h.reserved c hc])]
    · rfl
  · rw [State.freeDoomed_frame w'.st, State.freeDoomed_frame w.st, blocks, h.frame]

/-- What follows the lanes' work is the same on either side, but for the units, their clips and the reports, those of the
units coming last (R187). -/
theorem LaneWork.Beside.finish (hc : w.endCues = []) (es : List Event) :
    let a := finishLanes [] w
    let t := finishLanes es w'
    let told := w.reports ++ w.st.freeDoomed.2
    a.reportsAfter w.st told ∧ t.reportsAfter w.st (told.map (Event.namingCue cue i) ++ es)
      ∧ (∀ c, t.clip c = if c ∈ cs then { a.clip c with state := .filling } else a.clip c)
      ∧ t = { a with units := t.units, clips := t.clips, reports := t.reports, lost := t.lost, eventSeq := t.eventSeq } := by
  obtain ⟨events, clips, frame⟩ := h.freeDoomed
  have before := State.freeDoomed_frame w.st
  have mapped : (w.reports ++ w.st.freeDoomed.2).map (Event.namingCue cue i) = w'.reports ++ w'.st.freeDoomed.2 := by
    rw [events, h.reports, List.map_append]
    exact congrArg _ (Event.namingCue_clipFreed cue i w.st.doomedUnused)
  rw [finishLanes_of_no_end_cue hc, finishLanes_of_no_end_cue (h.endCues.trans hc), List.append_nil, ← mapped]
  have same : w.st.SameReports w.st.freeDoomed.1 := by rw [before]; exact ⟨rfl, rfl, rfl⟩
  have same' : w.st.SameReports w'.st.freeDoomed.1 := by rw [frame]; exact same
  refine ⟨same.offerEvents _, same'.offerEvents _, fun c => ?_, ?_⟩
  · rw [State.clip_congr (State.offerEvents_clips ..), State.clip_congr (State.offerEvents_clips ..)]
    exact clips c
  · rw [State.offerEvents_frame w'.st.freeDoomed.1, State.offerEvents_frame w.st.freeDoomed.1, frame]

end beside

/-! The units that start (R92) -/

/-- The clips of the units that are ARMED on a cue. -/
def State.armedClips (s : State) (cue : Fin 4096) : List Nat :=
  ((List.finRange 2).filter fun u => (s.unit u).awaits cue).map fun u => (s.unit u).clipNumber

theorem State.mem_armedClips (s : State) (cue : Fin 4096) (c : Nat) :
    c ∈ s.armedClips cue ↔ ∃ u, (s.unit u).awaits cue = true ∧ (s.unit u).clipNumber = c := by
  simp [State.armedClips]

/-- The clip of an ARMED unit is RESERVED (R86). -/
theorem State.captureSound.reserved {s : State} (h : s.captureSound) {cue : Fin 4096} {c : Nat}
    (hc : c ∈ s.armedClips cue) : (s.clip c).state = .reserved := by
  obtain ⟨u, awaits, rfl⟩ := (s.mem_armedClips cue c).mp hc
  obtain ⟨armed, -⟩ := (CaptureUnit.awaits_iff _ _).mp awaits
  rcases h.2.1 u with idle | ⟨c, hclip, -, -, -, -, ⟨-, reserved, -⟩ | ⟨recording, -⟩⟩
  · rw [idle] at armed; cases armed
  · rw [CaptureUnit.clipNumber_of_clip hclip]; exact reserved
  · rw [recording] at armed; cases armed

/-- The station once a cue is delivered to the units ARMED on it, unit 0 first, and the reports of that (R92, R115). -/
def State.startedOn (s : State) (cue : Fin 4096) : State × List Event :=
  eachUnit (fun u => startIf ((s.unit u).awaits cue) u) s

theorem startIf_spec {s : State} (h : sparseSorted s.clips = true) (u : Fin 2) (delivered : Bool) :
    let b := (startIf delivered u s).1
    sparseSorted b.clips = true ∧ b = { s with units := b.units, clips := b.clips }
      ∧ (∀ y, b.unit y = if y = u ∧ delivered = true then { s.unit u with state := .recording, cue := none } else s.unit y)
      ∧ (∀ c, b.clip c = if c = (s.unit u).clipNumber ∧ delivered = true then { s.clip c with state := .filling }
          else s.clip c)
      ∧ (startIf delivered u s).2 = if delivered = true then [.captureStarted u (s.unit u).clipNumber] else [] := by
  cases delivered with
  | false =>
    exact ⟨h, rfl, fun y => (if_neg fun hy => nomatch hy.2).symm, fun c => (if_neg fun hc => nomatch hc.2).symm, rfl⟩
  | true =>
    obtain ⟨units, clips⟩ := startUnit_spec h u
    simp only [and_true]
    exact ⟨State.sorted_setClip (s := s.setUnit u _) h _ _, rfl, units, clips, rfl⟩

/-- Each unit that awaits the cue is RECORDING and its clip FILLING; nothing else of the station differs. -/
theorem State.startedOn_spec {s : State} (h : sparseSorted s.clips = true) (cue : Fin 4096) :
    let b := (s.startedOn cue).1
    sparseSorted b.clips = true ∧ b = { s with units := b.units, clips := b.clips }
      ∧ (∀ u, b.unit u = if (s.unit u).awaits cue = true then { s.unit u with state := .recording, cue := none }
          else s.unit u)
      ∧ (∀ c, b.clip c = if c ∈ s.armedClips cue then { s.clip c with state := .filling } else s.clip c)
      ∧ (s.startedOn cue).2 = (List.finRange 2).flatMap fun u =>
          if (s.unit u).awaits cue = true then [.captureStarted u (s.unit u).clipNumber] else [] := by
  obtain ⟨sorted, frame, units, clips, events⟩ := startIf_spec h 0 ((s.unit 0).awaits cue)
  obtain ⟨sorted', frame', units', clips', events'⟩ := startIf_spec sorted 1 ((s.unit 1).awaits cue)
  have other : (startIf ((s.unit 0).awaits cue) 0 s).1.unit 1 = s.unit 1 := (units 1).trans (if_neg fun hy => nomatch hy.1)
  simp only [State.startedOn, eachUnit]
  refine ⟨sorted', ?_, Fin.forall_fin_two.mpr ⟨?_, ?_⟩, fun c => ?_, ?_⟩
  · rw [frame', frame]
  · refine (units' 0).trans ((if_neg fun hy => nomatch hy.1).trans ((units 0).trans ?_))
    simp only [true_and]
  · refine (units' 1).trans ?_
    simp only [true_and, other]
  · have mem : c ∈ s.armedClips cue ↔ (c = (s.unit 0).clipNumber ∧ (s.unit 0).awaits cue = true)
        ∨ (c = (s.unit 1).clipNumber ∧ (s.unit 1).awaits cue = true) := by
      rw [State.mem_armedClips, Fin.exists_fin_two, and_comm, and_comm (a := (s.unit 1).awaits cue = true), eq_comm,
        eq_comm (b := c)]
    rw [clips', other, clips]
    by_cases h1 : c = (s.unit 1).clipNumber ∧ (s.unit 1).awaits cue = true
    · rw [if_pos h1, if_pos (mem.mpr (.inr h1))]
      split <;> rfl
    · rw [if_neg h1]
      simp only [mem, h1, or_false]
  · rw [events, events', other]
    simp [List.finRange_succ]

theorem State.startedOn_of_none {s : State} {cue : Fin 4096} (h : ∀ u, (s.unit u).awaits cue = false) :
    s.startedOn cue = (s, []) := by
  simp only [State.startedOn, eachUnit, startIf, h]
  rfl

/-- The lanes' work starts beside the units that start. -/
theorem LaneWork.beside_startedOn {s : State} (hs : sparseSorted s.clips = true) (hcap : s.captureSound) (cue : Fin 4096)
    (i : Fin 8) : (LaneWork.start s).Beside (s.armedClips cue) cue i (LaneWork.start (s.startedOn cue).1) := by
  obtain ⟨sorted, frame, -, clips, -⟩ := State.startedOn_spec hs cue
  exact ⟨frame, hs, sorted, clips, fun c hc => hcap.reserved hc, rfl, rfl⟩

/-! TRIGGER_FALLS_DUE with one cue due (R92, R114 to R116) -/

theorem triggersRow_nil (w : LaneWork) : triggersRow [] w = w :=
  List.foldlRecOn (List.finRange 8) _ (motive := fun v => v = w) rfl fun _ hv _ _ => hv

theorem triggersRow_single (t : LaneTrigger) (w : LaneWork) : triggersRow [t] w = applyTrigger t.lane w t := by
  rw [triggersRow, foldl_eq_foldl_filter (P := fun _ => True) (p := (· == t.lane)) (fun _ _ _ _ => trivial) ?_ trivial,
    filter_finRange_eq_singleton]
  · exact applyTriggers_single t w
  · intro w j _ hj
    refine applyTriggers_of_none (fun x hx => ?_) w
    rw [List.mem_singleton.mp hx]
    rintro rfl
    simp at hj

/-- A load hands on no end cue. -/
theorem loadRecord_endCues (i : Fin 8) (index : Fin 256) (w : LaneWork) : (loadRecord i index w).endCues = w.endCues := by
  rcases loadRecord_cases i index w with ⟨r, -, h⟩ | ⟨reason, -, h⟩ <;> rw [h] <;> rfl

/-- A trigger hands on no end cue: a record that CUT ends at once hands on none (R31, R38). -/
theorem applyTrigger_endCues (i : Fin 8) (w : LaneWork) (t : LaneTrigger) : (applyTrigger i w t).endCues = w.endCues := by
  unfold applyTrigger
  split
  · split
    · simp only [queueTrigger]
      split <;> rfl
    · cases hr : (w.st.lane i).copy with
      | none => simp only [cutTrigger, hr]
      | some r =>
        have lane : (((w.report (supersededReport i (w.st.lane i))).setLane i
            ((w.st.lane i).afterCut r t.record)).st.lane i) = (w.st.lane i).afterCut r t.record :=
          (LaneWork.setLane_lane ..).trans (if_pos rfl)
        rw [cutTrigger_of_copy hr]
        dsimp only
        split
        · rw [endRecord_of_follows (index := t.record) (by rw [lane]; exact hr) (.inl (by rw [lane]; rfl)), loadRecord_endCues,
            LaneWork.ended, lane]
          exact List.append_nil _
        · rfl
    · rfl
  · exact loadRecord_endCues i t.record w

theorem finishLanes_units (es : List Event) (w : LaneWork) : (finishLanes es w).units = w.st.units := by
  simp only [finishLanes]
  rw [State.offerEvents_units, admitAll_frame, State.freeDoomed_frame]

theorem triggersRow_follows (ts : List LaneTrigger) (w : LaneWork) : w.Follows (triggersRow ts w) :=
  List.foldlRecOn (List.finRange 8) _ (motive := fun v => w.Follows v) (LaneWork.Follows.refl w)
    fun _ hv i _ => hv.trans (LaneWork.follows_applyTriggers ts i _)

/-- The end of TRIGGER_FALLS_DUE, read on the station before it: the work `w'` beside the units that start, and the work `w`
without them. -/
theorem LaneWork.Beside.due {s : State} {rest : List TriggerEntry} {cs : List Nat} {cue : Fin 4096} {i : Fin 8}
    {w w' : LaneWork} (h : w.Beside cs cue i w') (hw : (LaneWork.start (s.dueLeft rest)).Follows w) (hc : w.endCues = [])
    (es : List Event) :
    let a : State := { finishLanes [] w with frameCount := s.frameCount }
    let t : State := { finishLanes es w' with frameCount := s.frameCount }
    let told := w.reports ++ w.st.freeDoomed.2
    a.reportsAfter s told ∧ t.reportsAfter s (told.map (Event.namingCue cue i) ++ es)
      ∧ (∀ c, t.clip c = if c ∈ cs then { a.clip c with state := .filling } else a.clip c)
      ∧ t = { a with units := t.units, clips := t.clips, reports := t.reports, lost := t.lost, eventSeq := t.eventSeq } := by
  obtain ⟨told, told', clips, frame⟩ := h.finish hc es
  have start := hw.1
  have same : s.SameReports w.st := by rw [start]; exact ⟨rfl, rfl, rfl⟩
  exact ⟨State.reportsAfter.of_same told same, State.reportsAfter.of_same told' same, clips,
    congrArg (fun x : State => { x with frameCount := s.frameCount }) frame⟩

/-- The station once a cue that brings the lanes the triggers `ts` has fallen due: the units ARMED on it start, the lanes do
their work, and the reports are offered, those of the units last (R92, R115, R187). -/
def State.cueDelivered (s : State) (rest : List TriggerEntry) (cue : Fin 4096) (ts : List LaneTrigger) : State :=
  let b := (s.dueLeft rest).startedOn cue
  { finishLanes b.2 (triggersRow ts (LaneWork.start b.1)) with frameCount := s.frameCount }

section due
variable {s : State} {e : TriggerEntry} {rest : List TriggerEntry} {cue : Fin 4096}

theorem exec_triggerFallsDue_cue (hl : s.lock = .locked) (hq : s.triggers = e :: rest)
    (he : e.fallsDue (s.frameCount + 1) = true) (hrest : ∀ x ∈ rest, x.fallsDue (s.frameCount + 1) = false)
    (hk : e.kind = .cue cue) :
    exec .triggerFallsDue s = .next (s.cueDelivered rest cue (laneDeliveries s.countedIn e)) := by
  obtain ⟨due, left⟩ := State.dueEntries_single (s := s.countedIn) hq he hrest
  have delivered : (fun u : Fin 2 => startIf (arrivalPlan s.countedIn s.lastGood).delivered[u] u)
      = fun u => startIf ((s.unit u).awaits cue) u := by
    funext u
    simp only [arrivalPlan, Fin.getElem_fin, Vector.getElem_ofFn, due, deliveredTo, List.any_cons, List.any_nil, hk,
      Bool.or_false]
    rfl
  have triggers : (arrivalPlan s.countedIn s.lastGood).triggers = laneDeliveries s.countedIn e := by
    simp only [arrivalPlan, due, List.flatMap_singleton]
  have started : eachUnit (fun u : Fin 2 => startIf (arrivalPlan s.countedIn s.lastGood).delivered[u] u) s.countedIn.dropDue
      = (s.dueLeft rest).startedOn cue := by
    rw [delivered, left]
    rfl
  show Host.Outcome.next (whenLocked deliverDue s) = _
  rw [whenLocked_of_locked _ hl]
  simp only [State.countedIn] at started triggers
  simp only [deliverDue, State.atNextCount, started, triggers]
  rfl

variable (hs : s.Sound)
include hs

/-- Whatever the lanes do, the units ARMED on the cue are RECORDING and the others as they were (R92, R115). -/
theorem cueDelivered_unit (ts : List LaneTrigger) (u : Fin 2) : (s.cueDelivered rest cue ts).unit u
    = if (s.unit u).awaits cue = true then { s.unit u with state := .recording, cue := none } else s.unit u := by
  obtain ⟨-, -, units, -⟩ := State.startedOn_spec (s := s.dueLeft rest) hs.canonical.2.2.1 cue
  have row := (triggersRow_follows ts (LaneWork.start ((s.dueLeft rest).startedOn cue).1)).1
  have same : (s.cueDelivered rest cue ts).units = ((s.dueLeft rest).startedOn cue).1.units :=
    (finishLanes_units ..).trans (by rw [row]; rfl)
  exact (State.unit_congr same u).trans (units u)

theorem startedOn_dueLeft_events : ((s.dueLeft rest).startedOn cue).2 = (List.finRange 2).flatMap fun u =>
    if (s.unit u).awaits cue = true then [.captureStarted u (s.unit u).clipNumber] else [] := by
  obtain ⟨-, -, -, -, events⟩ := State.startedOn_spec (s := s.dueLeft rest) hs.canonical.2.2.1 cue
  exact events

/-- Without units and triggers for the lanes the entry is dropped, and that is all (R115). -/
theorem finishLanes_dueLeft : ({ finishLanes [] (LaneWork.start (s.dueLeft rest)) with frameCount := s.frameCount } : State)
    = { s with triggers := rest } :=
  hs.dueLeft_finish (u := { s with triggers := rest }) rfl rfl rfl rfl

theorem cueDelivered_nil_of_none (h : ∀ u, (s.unit u).awaits cue = false) :
    s.cueDelivered rest cue [] = { s with triggers := rest } := by
  have quiet : (s.dueLeft rest).startedOn cue = (s.dueLeft rest, []) := State.startedOn_of_none h
  rw [State.cueDelivered, quiet, triggersRow_nil]
  exact finishLanes_dueLeft hs

/-- A cue that brings the lanes nothing starts the units, and that is all (R92, R115). -/
theorem cueDelivered_nil :
    let t := s.cueDelivered rest cue []
    (∀ c, t.clip c = if c ∈ s.armedClips cue then { s.clip c with state := .filling } else s.clip c)
      ∧ t.reportsAfter s ((s.dueLeft rest).startedOn cue).2
      ∧ t = { s with triggers := rest, units := t.units, clips := t.clips, reports := t.reports, lost := t.lost
                     eventSeq := t.eventSeq } := by
  have still : (s.dueLeft rest).doomedUnused = [] := hs.doomedUnused rfl
  have beside := LaneWork.beside_startedOn (s := s.dueLeft rest) hs.canonical.2.2.1 hs.capture cue 0
  obtain ⟨-, told, clips, frame⟩ :=
    beside.due (LaneWork.Follows.refl _) rfl ((s.dueLeft rest).startedOn cue).2
  rw [finishLanes_dueLeft hs] at clips frame
  simp only [LaneWork.start, State.freeDoomed_of_nothing still, List.append_nil, List.map_nil, List.nil_append] at told
  rw [State.cueDelivered, triggersRow_nil]
  exact ⟨clips, told, frame⟩

/-- A cue that brings a lane a trigger starts the units; the lane does what the same trigger of a TAKE would have it do, but
that a MISSED CUE names the cue (R115, R116). -/
theorem cueDelivered_single {x : LaneTrigger} (hx : x.cue = 0) :
    let a : State := { finishLanes [] (applyTrigger x.lane (LaneWork.start (s.dueLeft rest)) x) with frameCount := s.frameCount }
    let t := s.cueDelivered rest cue [{ x with cue := cue }]
    ∃ told, a.reportsAfter s told
      ∧ t.reportsAfter s (told.map (Event.namingCue cue x.lane) ++ ((s.dueLeft rest).startedOn cue).2)
      ∧ (∀ c, t.clip c = if c ∈ s.armedClips cue then { a.clip c with state := .filling } else a.clip c)
      ∧ t = { a with units := t.units, clips := t.clips, reports := t.reports, lost := t.lost, eventSeq := t.eventSeq } := by
  have beside := LaneWork.beside_startedOn (s := s.dueLeft rest) hs.canonical.2.2.1 hs.capture cue x.lane
  rw [State.cueDelivered, triggersRow_single]
  exact ⟨_, (beside.applyTrigger hx).due (LaneWork.follows_applyTrigger ..) (applyTrigger_endCues ..) _⟩

end due

/-- Settles O55: the units start first (`cueDelivered_unit`), and the lanes' work is that of the station without their start
(`cueDelivered_nil`, `cueDelivered_single`). -/
theorem dueCueStartsArmedUnits : Obligations.DueCueStartsArmedUnits := by
  intro s e rest cue hs locked hq he hrest hk awaits started
  have ran := exec_triggerFallsDue_cue locked hq he hrest hk
  have awaits_iff : ∀ u, (s.unit u).awaits cue = true ↔ awaits u := fun u => CaptureUnit.awaits_iff _ _
  have armed : ∀ c, c ∈ s.armedClips cue ↔ ∃ u, awaits u ∧ (s.unit u).clipNumber = c := fun c =>
    (s.mem_armedClips cue c).trans (exists_congr fun u => and_congr_left fun _ => awaits_iff u)
  have events : ((s.dueLeft rest).startedOn cue).2 = started := by
    rw [startedOn_dueLeft_events hs]
    simp only [CaptureUnit.awaits_iff]
    rfl
  refine ⟨_, ran, fun u => ?_, fun unmapped => ?_, fun m hm hcue => ?_⟩
  · have unit := cueDelivered_unit (rest := rest) (cue := cue) hs (laneDeliveries s.countedIn e) u
    exact ⟨fun h => unit.trans (if_pos ((awaits_iff u).mpr h)), fun h => unit.trans (if_neg (mt (awaits_iff u).mp h))⟩
  · have nothing : laneDeliveries s.countedIn e = [] := by
      simp only [laneDeliveries, hk, (mapped_eq_none_iff s.countedIn cue).mpr unmapped]
    obtain ⟨clips, told, frame⟩ := cueDelivered_nil (rest := rest) (cue := cue) hs
    rw [nothing]
    exact ⟨fun c => ⟨fun h => (clips c).trans (if_pos ((armed c).mpr h)), fun h => (clips c).trans (if_neg (mt (armed c).mp h))⟩,
      events ▸ told,
      fun h => cueDelivered_nil_of_none hs fun u => Bool.eq_false_iff.mpr (mt (awaits_iff u).mp (h u)), frame⟩
  · have mapped := mapped_eq_some (s := s.countedIn) hs.cueMap hm
    have one : laneDeliveries s.countedIn e = [{ lane := m.lane, record := m.record, policy := m.policy, cue := cue }] := by
      simp only [laneDeliveries, hk, ← hcue, mapped]
    have taken := exec_triggerFallsDue_single
      (s := { s with triggers := { e with kind := .take m.lane m.record m.policy } :: rest }) hs.cueMap locked rfl he hrest
      (.inl ⟨rfl, rfl⟩)
    obtain ⟨es, told, told', clips, frame⟩ := cueDelivered_single (rest := rest) (cue := cue) hs
      (x := { lane := m.lane, record := m.record, policy := m.policy, cue := 0 }) rfl
    rw [one]
    exact ⟨_, es, taken,
      fun c => ⟨fun h => (clips c).trans (if_pos ((armed c).mpr h)), fun h => (clips c).trans (if_neg (mt (armed c).mp h))⟩,
      told, events ▸ told', frame⟩

end Sys2Proof.Machine
end

section
/-! The layouts of Tables 7-3 to 7-6: frames, control words and payloads, written and read back (R125, R136, R141). -/

namespace Sys2Proof.Machine

/-! Bits side by side -/

theorem toNat_append_eq {m n : Nat} (x : BitVec m) (y : BitVec n) : (x ++ y).toNat = x.toNat * 2 ^ n + y.toNat := by
  rw [BitVec.toNat_append, ← Nat.shiftLeft_add_eq_or_of_lt y.isLt, Nat.shiftLeft_eq]

theorem extract_extract {n : Nat} (w : BitVec n) {a b c k l : Nat} (h : b + k ≤ l ∧ c = a + b) :
    (w.extractLsb' a l).extractLsb' b k = w.extractLsb' c k := by
  ext i hi
  simp only [BitVec.getElem_extractLsb', BitVec.getLsbD_extractLsb', h.2, Nat.add_assoc]
  simp only [show b + i < l by omega, decide_true, Bool.true_and]

/-- The first `n` samples of a row side by side, the first one most significant. -/
def joinedSamples (g : Nat → Sample) : (n : Nat) → BitVec (24 * n)
  | 0 => 0
  | n + 1 => joinedSamples g n ++ g n

theorem joinedSamples_succ (g : Nat → Sample) (n : Nat) : joinedSamples g (n + 1) = joinedSamples g n ++ g n := rfl

theorem joinedSamples_extract (g : Nat → Sample) {i n : Nat} (h : i < n) :
    (joinedSamples g n).extractLsb' (24 * (n - 1 - i)) 24 = g i := by
  induction n with
  | zero => omega
  | succ n ih =>
    rw [joinedSamples_succ]
    by_cases hi : i = n
    · rw [hi, show 24 * (n + 1 - 1 - n) = 0 by omega]
      exact BitVec.extractLsb'_append_eq_right
    · rw [show 24 * (n + 1 - 1 - i) = 24 * (n - 1 - i) + 24 by omega]
      refine (BitVec.extractLsb'_append_eq_of_le (Nat.le_add_left 24 _)).trans ?_
      rw [Nat.add_sub_cancel]
      exact ih (by omega)

/-- The samples cut out of a string of bits are that string side by side. -/
theorem joinedSamples_of_extract (w : BitVec 384) {n : Nat} (h : n ≤ 16) :
    joinedSamples (fun i => w.extractLsb' (360 - 24 * i) 24) n = w.extractLsb' (384 - 24 * n) (24 * n) := by
  induction n with
  | zero => exact (BitVec.extractLsb'_eq_zero).symm
  | succ n ih =>
    rw [joinedSamples_succ, ih (by omega), show 384 - 24 * (n + 1) = 360 - 24 * n by omega]
    exact BitVec.extractLsb'_append_extractLsb'_eq_extractLsb' (by omega)

theorem joinedSamples_congr {g h : Nat → Sample} {n : Nat} (heq : ∀ i < n, g i = h i) :
    joinedSamples g n = joinedSamples h n := by
  induction n with
  | zero => rfl
  | succ n ih => rw [joinedSamples_succ, joinedSamples_succ, ih fun i hi => heq i (by omega), heq n (by omega)]

/-- The sample of a slot, by its number. -/
def slotSample (v : SampleSet) (i : Nat) : Sample := if h : i < 16 then v[i] else 0

theorem samplesToBits_eq (v : SampleSet) : samplesToBits v = joinedSamples (slotSample v) 16 := by
  apply BitVec.eq_of_toNat_eq
  simp only [samplesToBits, joinedSamples, toNat_append_eq, slotSample, Nat.reduceLT, dite_true]
  simp

theorem samplesToBits_slot (v : SampleSet) (i : Fin 16) : (samplesToBits v).extractLsb' (360 - 24 * i.val) 24 = v[i] := by
  have slot : slotSample v i.val = v[i] := dif_pos i.isLt
  rw [samplesToBits_eq, ← slot, ← joinedSamples_extract (slotSample v) i.isLt, show 24 * (16 - 1 - i.val) = 360 - 24 * i.val by omega]

theorem samplesToBits_extract (w : BitVec 384) :
    samplesToBits (Vector.ofFn fun i : Fin 16 => w.extractLsb' (360 - 24 * i.val) 24) = w := by
  have cut := joinedSamples_of_extract w (n := 16) (Nat.le_refl 16)
  rw [samplesToBits_eq, joinedSamples_congr (h := fun i => w.extractLsb' (360 - 24 * i) 24), cut]
  · exact BitVec.extractLsb'_eq_self
  · intro i hi
    rw [slotSample, dif_pos hi, Vector.getElem_ofFn]

theorem joinedSamples_toNat (g : Nat → Sample) {n : Nat} (h : n ≤ 16) : (joinedSamples g n).toNat * 2 ^ (432 - 24 * n)
    = ((List.range n).map fun j => (g j).toNat * 2 ^ (408 - 24 * j)).sum := by
  induction n with
  | zero => exact Nat.zero_mul _
  | succ n ih =>
    have place : 2 ^ (432 - 24 * n) = 2 ^ 24 * 2 ^ (408 - 24 * n) := by rw [← Nat.pow_add]; congr 1; omega
    rw [List.range_succ, List.map_append, List.sum_append, ← ih (by omega), joinedSamples_succ, toNat_append_eq, place,
      show 432 - 24 * (n + 1) = 408 - 24 * n by omega]
    simp only [List.map_cons, List.map_nil, List.sum_cons, List.sum_nil]
    ring

theorem samplesToBits_toNat (v : SampleSet) : (samplesToBits v).toNat * 2 ^ 48
    = ((List.finRange 16).map fun j => (v[j]).toNat * 2 ^ (408 - 24 * j.val)).sum := by
  rw [samplesToBits_eq]
  refine (joinedSamples_toNat (slotSample v) (Nat.le_refl 16)).trans ?_
  rw [← List.map_coe_finRange_eq_range, List.map_map]
  refine congrArg List.sum (List.map_congr_left fun j _ => ?_)
  simp only [Function.comp_apply, slotSample, dif_pos j.isLt]
  rfl

/-! Frames (Table 7-3) -/

theorem frameOfLine_frameToLine (f : Frame) : frameOfLine (frameToLine f) = f := by
  obtain ⟨marker, samples, control, check⟩ := f
  have head : ∀ {k n : Nat}, (frameToLine ⟨marker, samples, control, check⟩).extractLsb' (48 + k) n
      = (marker ++ samplesToBits samples).extractLsb' k n := fun {k n} => by
    refine (BitVec.extractLsb'_append_eq_of_le (by omega)).trans ((BitVec.extractLsb'_append_eq_of_le (by omega)).trans ?_)
    rw [show 48 + k - 16 - 32 = k by omega]
  simp only [frameOfLine, Frame.mk.injEq]
  refine ⟨?_, ?_, ?_, ?_⟩
  · exact (head (k := 384)).trans BitVec.extractLsb'_append_eq_left
  · refine Vector.ext fun i hi => ?_
    rw [Vector.getElem_ofFn, show 408 - 24 * i = 48 + (360 - 24 * i) by omega, head]
    exact (BitVec.extractLsb'_append_eq_of_add_le (by omega)).trans (samplesToBits_slot samples ⟨i, hi⟩)
  · exact (BitVec.extractLsb'_append_eq_of_le (by omega)).trans BitVec.extractLsb'_append_eq_right
  · exact BitVec.extractLsb'_append_eq_right

theorem frameToLine_frameOfLine (w : LineFrame) : frameToLine (frameOfLine w) = w := by
  have slots : samplesToBits (frameOfLine w).samples = w.extractLsb' 48 384 := by
    rw [← samplesToBits_extract (w.extractLsb' 48 384)]
    refine congrArg samplesToBits (Vector.ext fun i hi => ?_)
    simp only [frameOfLine, Vector.getElem_ofFn]
    exact (extract_extract w (by omega)).symm
  have upper : (frameOfLine w).marker ++ w.extractLsb' 48 384 = w.extractLsb' 48 400 :=
    BitVec.extractLsb'_append_extractLsb'_eq_extractLsb' (start₂ := 432) (len₂ := 16) (by decide)
  have body : w.extractLsb' 48 400 ++ (frameOfLine w).control = w.extractLsb' 16 432 :=
    BitVec.extractLsb'_append_extractLsb'_eq_extractLsb' (len₂ := 400) (by decide)
  have whole : w.extractLsb' 16 432 ++ (frameOfLine w).check = w.extractLsb' 0 448 :=
    BitVec.extractLsb'_append_extractLsb'_eq_extractLsb' (len₂ := 432) (by decide)
  rw [frameToLine, slots]
  exact (congrArg (fun x : BitVec 432 => x ++ (frameOfLine w).check)
    ((congrArg (fun x : BitVec 400 => x ++ (frameOfLine w).control) upper).trans body)).trans
      (whole.trans BitVec.extractLsb'_eq_self)

/-- The number that the 448 bits of a frame make (Table 7-3). -/
theorem frameToLine_toNat (f : Frame) : (frameToLine f).toNat = f.marker.toNat * 2 ^ 432
    + ((List.finRange 16).map fun j => (f.samples[j]).toNat * 2 ^ (408 - 24 * j.val)).sum
    + f.control.toNat * 2 ^ 16 + f.check.toNat := by
  have bits : (frameToLine f).toNat
      = ((f.marker.toNat * 2 ^ 384 + (samplesToBits f.samples).toNat) * 2 ^ 32 + f.control.toNat) * 2 ^ 16
        + f.check.toNat :=
    (toNat_append_eq _ _).trans (by rw [toNat_append_eq, toNat_append_eq])
  have placed : ∀ q p m s c k : Nat, p = q + 48 →
      ((m * 2 ^ q + s) * 2 ^ 32 + c) * 2 ^ 16 + k = m * 2 ^ p + s * 2 ^ 48 + c * 2 ^ 16 + k := by
    rintro q p m s c k rfl
    ring
  rw [bits, ← samplesToBits_toNat, placed 384 432 _ _ _ _ rfl]

/-! The frame test (R125, R136) -/

theorem frameCheck_toNat (samples : SampleSet) (control : ControlWord) :
    (frameCheck samples control).toNat = ((samples.toList.map BitVec.toNat).sum + control.toNat) % 65536 := by
  have total : samples.toList.foldl (fun n x => n + x.toNat) 0 = (samples.toList.map BitVec.toNat).sum := by
    rw [List.sum_eq_foldl, List.foldl_map]
  rw [frameCheck, total]
  exact BitVec.toNat_ofNat _ 16

theorem Frame.good_iff (f : Frame) : f.good = true
    ↔ f.marker = 0x5A3C ∧ f.check.toNat = ((f.samples.toList.map BitVec.toNat).sum + f.control.toNat) % 65536 := by
  rw [Frame.good, Bool.and_eq_true, beq_iff_eq, beq_iff_eq, ← frameCheck_toNat, BitVec.toNat_inj]
  rfl

/-- The Line Transmitter's frame reads back as it was composed (R136). -/
theorem frameOfLine_composeFrame (samples : SampleSet) (control : ControlWord) :
    frameOfLine (composeFrame samples control) = ⟨markerValue, samples, control, frameCheck samples control⟩ :=
  frameOfLine_frameToLine _

theorem composeFrame_good (samples : SampleSet) (control : ControlWord) :
    (frameOfLine (composeFrame samples control)).good = true := by
  rw [frameOfLine_composeFrame, Frame.good_iff]
  exact ⟨rfl, frameCheck_toNat samples control⟩

theorem composeFrame_control (samples : SampleSet) (control : ControlWord) :
    (frameOfLine (composeFrame samples control)).control = control := by
  rw [frameOfLine_composeFrame]

/-! Control words (Tables 7-4 and 7-5) -/

theorem WordKind.ofCode_code (kind : WordKind) : WordKind.ofCode kind.code = kind := by cases kind <;> rfl

theorem WordKind.code_ofCode : ∀ c : BitVec 3, (WordKind.ofCode c).code = c := by decide

section
variable (kind : WordKind) (station : BitVec 5) (payload : Payload)

theorem wordKind_controlWord : wordKind (controlWord kind station payload) = kind := by
  have code : (controlWord kind station payload).extractLsb' 29 3 = kind.code :=
    (BitVec.extractLsb'_append_eq_of_le (by decide)).trans BitVec.extractLsb'_append_eq_left
  rw [wordKind, code, kind.ofCode_code]

theorem wordStation_controlWord : wordStation (controlWord kind station payload) = station :=
  (BitVec.extractLsb'_append_eq_of_le (by decide)).trans BitVec.extractLsb'_append_eq_right

theorem wordPayload_controlWord : wordPayload (controlWord kind station payload) = payload :=
  BitVec.extractLsb'_append_eq_right

theorem controlWord_toNat : (controlWord kind station payload).toNat
    = kind.code.toNat * 536870912 + station.toNat * 16777216 + payload.toNat := by
  have bits : (controlWord kind station payload).toNat = (kind.code.toNat * 2 ^ 5 + station.toNat) * 2 ^ 24 + payload.toNat :=
    (toNat_append_eq _ _).trans (by rw [toNat_append_eq])
  simp only [bits, Nat.add_mul, Nat.mul_assoc, Nat.reducePow, Nat.reduceMul]

end

theorem controlWord_fields (w : ControlWord) : controlWord (wordKind w) (wordStation w) (wordPayload w) = w := by
  have code : (wordKind w).code = w.extractLsb' 29 3 := WordKind.code_ofCode _
  have upper : w.extractLsb' 29 3 ++ wordStation w = w.extractLsb' 24 8 :=
    BitVec.extractLsb'_append_extractLsb'_eq_extractLsb' (by decide)
  have whole : w.extractLsb' 24 8 ++ wordPayload w = w.extractLsb' 0 32 :=
    BitVec.extractLsb'_append_extractLsb'_eq_extractLsb' (by decide)
  calc controlWord (wordKind w) (wordStation w) (wordPayload w)
      = w.extractLsb' 29 3 ++ wordStation w ++ wordPayload w := by rw [controlWord, code]
    _ = w.extractLsb' 24 8 ++ wordPayload w := by rw [upper]
    _ = w := whole.trans BitVec.extractLsb'_eq_self

/-! Payloads (Table 7-6) -/

theorem length_ofNat {n : Nat} (h : n < 256) : (BitVec.ofNat 8 n).toNat = n := Nat.mod_eq_of_lt h

theorem headPayload_fields (code seq : BitVec 8) {n : Nat} (h : n < 256) : headCode (headPayload code seq n) = code
    ∧ headSeq (headPayload code seq n) = seq ∧ bodyLength (headPayload code seq n) = n
    ∧ (headPayload code seq n).toNat = code.toNat * 65536 + seq.toNat * 256 + n := by
  have length : (headPayload code seq n).extractLsb' 0 8 = BitVec.ofNat 8 n := BitVec.extractLsb'_append_eq_right
  have bits : (headPayload code seq n).toNat = (code.toNat * 2 ^ 8 + seq.toNat) * 2 ^ 8 + (BitVec.ofNat 8 n).toNat :=
    (toNat_append_eq _ _).trans (by rw [toNat_append_eq])
  rw [length_ofNat h] at bits
  refine ⟨?_, ?_, ?_, by simp only [bits, Nat.add_mul, Nat.mul_assoc, Nat.reducePow, Nat.reduceMul]⟩
  · exact (BitVec.extractLsb'_append_eq_of_le (by decide)).trans BitVec.extractLsb'_append_eq_left
  · exact (BitVec.extractLsb'_append_eq_of_le (by decide)).trans BitVec.extractLsb'_append_eq_right
  · rw [bodyLength, length, length_ofNat h]

theorem endPayload_fields (check : BitVec 16) {n : Nat} (h : n < 256) : endCheck (endPayload check n) = check
    ∧ bodyLength (endPayload check n) = n ∧ (endPayload check n).toNat = check.toNat * 256 + n := by
  have length : (endPayload check n).extractLsb' 0 8 = BitVec.ofNat 8 n := BitVec.extractLsb'_append_eq_right
  have bits : (endPayload check n).toNat = check.toNat * 2 ^ 8 + (BitVec.ofNat 8 n).toNat := toNat_append_eq _ _
  rw [length_ofNat h] at bits
  refine ⟨BitVec.extractLsb'_append_eq_left, ?_, bits⟩
  rw [bodyLength, length, length_ofNat h]

theorem cuePayload_fields (cue offset : Fin 4096) : cueNumber (cuePayload cue offset) = cue
    ∧ cueOffset (cuePayload cue offset) = offset ∧ (cuePayload cue offset).toNat = cue.val * 4096 + offset.val := by
  have number : (cuePayload cue offset).extractLsb' 12 12 = BitVec.ofFin cue := BitVec.extractLsb'_append_eq_left
  have frames : (cuePayload cue offset).extractLsb' 0 12 = BitVec.ofFin offset := BitVec.extractLsb'_append_eq_right
  exact ⟨congrArg BitVec.toFin number, congrArg BitVec.toFin frames, toNat_append_eq _ _⟩

/-! The tables together -/

/-- Settles O14: the fields stand side by side, so each is cut out again, and the numbers are those of Horner's rule. -/
theorem frameAndWordLayoutsRoundTrip : Obligations.FrameAndWordLayoutsRoundTrip := by
  refine ⟨frameOfLine_frameToLine, frameToLine_frameOfLine, frameToLine_toNat, Frame.good_iff,
    fun kind station payload => ⟨wordKind_controlWord .., wordStation_controlWord .., wordPayload_controlWord ..,
      controlWord_toNat ..⟩,
    controlWord_fields, fun code seq n h => headPayload_fields code seq h, fun check n h => endPayload_fields check h,
    cuePayload_fields, fun samples control => ?_, rfl, rfl, rfl, rfl, rfl, rfl, rfl, rfl, fun e => ?_⟩
  · refine ⟨composeFrame_good samples control, ?_⟩
    rw [frameOfLine_composeFrame]
    exact ⟨rfl, rfl, frameCheck_toNat samples control⟩
  · cases e with
    | missedCue cue lane => cases lane <;> rfl
    | _ => rfl

end Sys2Proof.Machine
end

section
/-! What the taking of an order can do to a station: which fields it leaves, that it only adds reports, and the three things
that can become of the Trigger Queue and the Cue Out list (R117, R152 to R158, R166, R171). -/

namespace Sys2Proof.Machine

/-- `t` comes from `s` by the taking of an order. The receiver, the line, the order in assembly and the report in emission are
as before; reports are only added; and the queues of the Trigger Unit are as before, emptied, or longer by a TAKE. -/
structure State.AfterOrder (s t : State) : Prop where
  frame : t = { s with
    lastTaken := t.lastTaken, cueMap := t.cueMap, triggers := t.triggers, cueOut := t.cueOut, table := t.table
    lanes := t.lanes, slots := t.slots, law := t.law, memory := t.memory, freeBlocks := t.freeBlocks, clips := t.clips
    units := t.units, reports := t.reports, lost := t.lost, eventSeq := t.eventSeq }
  reports : ∃ more, t.reports = s.reports ++ more
  queues : (t.triggers = s.triggers ∧ t.cueOut = s.cueOut) ∨ (t.triggers = [] ∧ t.cueOut = [])
    ∨ ∃ delay kind, s.triggers.length < 16 ∧ t.triggers = (s.enterTrigger delay kind).triggers ∧ t.cueOut = s.cueOut

/-- The execution of an order that leaves the Trigger Unit's queues. -/
theorem State.AfterOrder.of_frame {s t : State} (h : t = { s with
    cueMap := t.cueMap, table := t.table, lanes := t.lanes, slots := t.slots, law := t.law, memory := t.memory
    freeBlocks := t.freeBlocks, clips := t.clips, units := t.units }) : s.AfterOrder t := by
  rw [h]
  exact ⟨rfl, ⟨[], (List.append_nil _).symm⟩, .inl ⟨rfl, rfl⟩⟩

theorem State.AfterOrder.of_eq {s t : State} (h : t = s) : s.AfterOrder t := h ▸ State.AfterOrder.of_frame rfl

theorem State.CaptureFollows.afterOrder {s t : State} (h : s.CaptureFollows t) : s.AfterOrder t := by
  unfold State.CaptureFollows at h
  rw [h]
  exact State.AfterOrder.of_frame rfl

/-- Reports offered behind an order's execution, and what the last-taken memory then holds, change none of that. -/
theorem State.AfterOrder.answered {s t : State} (h : s.AfterOrder t) (taken : Option LastTaken) (seq : BitVec 8)
    (words : List Nat) (es : List Event) :
    s.AfterOrder ((({ t with lastTaken := taken } : State).queueAck seq words).offerEvents es) := by
  obtain ⟨frame, ⟨more, reports⟩, queues⟩ := h
  obtain ⟨offered, added, -⟩ := State.offerEvents_reports (({ t with lastTaken := taken } : State).queueAck seq words) es
  refine ⟨?_, ⟨more ++ ([{ code := 0, seq := seq, body := toPayloads words }] ++ offered), added.trans ?_⟩, ?_⟩
  · rw [State.offerEvents_frame, frame]
    rfl
  · rw [State.queueAck_reports, reports, List.append_assoc, List.append_assoc]
  · rw [State.offerEvents_triggers, State.offerEvents_cueOut]
    exact queues

/-! CLEAR STATION (R166 to R171) -/

/-- `t` comes from `s` by a CLEAR STATION: the queues of the Trigger Unit are empty, and only what the orders reach differs. -/
def State.Cleared (s t : State) : Prop := t = { s with
  triggers := [], cueOut := [], cueMap := t.cueMap, table := t.table, lanes := t.lanes, slots := t.slots, law := t.law
  memory := t.memory, freeBlocks := t.freeBlocks, clips := t.clips, units := t.units }

theorem State.Cleared.afterOrder {s t : State} (h : s.Cleared t) : s.AfterOrder t := by
  unfold State.Cleared at h
  rw [h]
  exact ⟨rfl, ⟨[], (List.append_nil _).symm⟩, .inr (.inl ⟨rfl, rfl⟩)⟩

theorem State.cleared_clearLanes (s : State) : s.Cleared (clearLanes s).1 := by
  have follows : (abandonLanes .cleared s).st = { s with lanes := _, slots := _, clips := _ } :=
    (LaneWork.follows_abandonLanes .cleared s).1
  unfold State.Cleared
  simp only [clearLanes, State.flushTriggers]
  rw [State.freeDoomed_frame, follows]

theorem State.Cleared.tables {s t : State} (h : s.Cleared t) : s.Cleared (clearTables t) := by
  unfold State.Cleared at h ⊢
  rw [h]
  rfl

theorem State.Cleared.captured {s t u : State} (h : s.Cleared t) (hu : t.CaptureFollows u) : s.Cleared u := by
  unfold State.CaptureFollows at hu
  unfold State.Cleared at h ⊢
  rw [hu, h]

theorem State.captureFollows_clearStore (s : State) : s.CaptureFollows (clearStore s).1 := by
  have follows := State.captureFollows_eachUnit (fun u s => s.captureFollows_cancelUnit .cleared u) s
  unfold State.CaptureFollows at follows ⊢
  simp only [clearStore]
  rw [follows]

theorem State.Cleared.store {s t : State} (h : s.Cleared t) : s.Cleared (clearStore t).1 :=
  h.captured t.captureFollows_clearStore

theorem afterOrder_orderClearStation (body : List Payload) (s : State) : s.AfterOrder (orderClearStation body s).st := by
  have lanes := s.cleared_clearLanes
  unfold orderClearStation
  split
  · split
    · rw [clearScopeLanes_st]; exact lanes.afterOrder
    · rw [clearScopeTables_st]; exact lanes.tables.afterOrder
    · rw [clearScopeStore_st]; exact lanes.store.afterOrder
    · rw [clearScopeAll_st]; exact lanes.tables.store.afterOrder
    · exact .of_eq rfl
  · exact .of_eq rfl

/-! The taking of an order -/

/-- TAKE enters one trigger, or changes nothing (R117). -/
theorem orderTake_cases (body : List Payload) (s : State) : (orderTake body s).st = s
    ∨ ∃ delay kind, s.triggers.length < 16 ∧ (orderTake body s).st = s.enterTrigger delay kind := by
  unfold orderTake
  split
  · split
    · split
      · exact .inl rfl
      · rename_i room
        exact .inr ⟨_, _, by simpa [State.triggersFull] using room, rfl⟩
    · exact .inl rfl
  · exact .inl rfl

theorem afterOrder_orderTake (body : List Payload) (s : State) : s.AfterOrder (orderTake body s).st := by
  rcases orderTake_cases body s with same | ⟨delay, kind, room, entered⟩
  · exact .of_eq same
  · rw [entered]
    exact ⟨rfl, ⟨[], (List.append_nil _).symm⟩, .inr (.inr ⟨delay, kind, room, rfl, rfl⟩)⟩

theorem afterOrder_executeOrder {code : Nat} {body : List Payload} {f : State → OrderResult}
    (h : executeOrder code body = some f) (s : State) : s.AfterOrder (f s).st := by
  unfold executeOrder at h
  split at h <;> cases h
  · exact .of_eq (orderReadStation_st body s)
  · exact afterOrder_orderClearStation body s
  · rw [orderLoadRecord_frame]; exact .of_frame rfl
  · rw [orderEraseRecord_frame]; exact .of_frame rfl
  · exact .of_eq (orderReadRecord_st body s)
  · rw [orderMapCue_frame]; exact .of_frame rfl
  · rw [orderUnmapCue_frame]; exact .of_frame rfl
  · exact .of_eq (orderReadCueMap_st body s)
  · exact afterOrder_orderTake body s
  · rw [orderWaiting_frame]; exact .of_frame rfl
  · rw [orderWaiting_frame]; exact .of_frame rfl
  · exact .of_eq (orderReadLane_st body s)
  · exact (State.captureFollows_clipOrder State.captureFollows_openClip body s).afterOrder
  · exact (s.captureFollows_orderAppendClip body).afterOrder
  · exact (State.captureFollows_clipOrder State.captureFollows_closeClip body s).afterOrder
  · exact (State.captureFollows_clipOrder State.captureFollows_deleteClip body s).afterOrder
  · exact .of_eq (orderReadClip_st body s)
  · rw [orderCapture_frame]; exact .of_frame rfl
  · exact (s.captureFollows_orderCancelCapture body).afterOrder
  · rw [orderLoadLaw_frame]; exact .of_frame rfl
  · exact .of_eq (orderReadLaw_st body s)
  · exact .of_eq (orderReadTriggers_st body s)

/-- What the taking of any complete order can do. -/
theorem afterOrder_takeOrder (code seq : BitVec 8) (body : List Payload) (s : State) :
    s.AfterOrder (takeOrder code seq body s) := by
  have acknowledged : ∀ words, s.AfterOrder (s.queueAck seq words) := fun words =>
    (State.AfterOrder.of_eq rfl).answered s.lastTaken seq words []
  unfold takeOrder
  split
  · unfold takeUnknown
    split
    · exact .of_eq rfl
    · exact acknowledged _
  · rename_i f hf
    have executed := afterOrder_executeOrder hf s
    split
    · rcases takeRead_cases code seq f s with ⟨-, taken⟩ | ⟨-, taken⟩ <;> rw [taken]
      · exact .of_eq rfl
      · exact executed.answered (f s).st.lastTaken seq _ _
    · rcases takeChange_cases code seq f s with ⟨-, taken⟩ | ⟨-, status, -, taken⟩ | ⟨-, -, taken⟩ <;> rw [taken]
      · exact .of_eq rfl
      · exact acknowledged _
      · exact executed.answered _ seq _ _

theorem afterOrder_takeComplete (order : Option Assembly) (s : State) : s.AfterOrder (takeComplete order s) := by
  cases order with
  | none => exact .of_eq rfl
  | some a => exact afterOrder_takeOrder a.code a.seq a.body s

end Sys2Proof.Machine
end

section
/-! The Trigger Queue stays in order and in time at every step, across the wrap of the frame count, and the Cue Out list within
its bound (R104, R105, R110, R119, R122). -/

namespace Sys2Proof.Machine

/-! Entries in time -/

/-- An entry is due at most 4095 frames after its admission, and seen from frame count `now` it is not overdue; its admission
is then at most one frame after `now` (R105). -/
def TriggerEntry.inTime (now : FrameCount) (e : TriggerEntry) : Prop :=
  (e.due - e.admitted).toNat ≤ 4095 ∧ (now + 1 - e.admitted).toNat ≤ (e.due - e.admitted).toNat + 1

/-- From one frame before its admission to its due frame an entry counts its frames to go, never more than 4096. -/
theorem TriggerEntry.inTime.toGo {now : FrameCount} {e : TriggerEntry} (h : e.inTime now) :
    (e.due - now).toNat + (now + 1 - e.admitted).toNat = (e.due - e.admitted).toNat + 1 := by
  obtain ⟨hdue, hnow⟩ := h
  bv_omega

theorem TriggerEntry.inTime.toGo_le {now : FrameCount} {e : TriggerEntry} (h : e.inTime now) : (e.due - now).toNat ≤ 4096 := by
  have := h.toGo
  have := h.1
  omega

/-- An entry that does not fall due at the next count is in time then, with one frame less to go (R105). -/
theorem TriggerEntry.inTime.next {now : FrameCount} {e : TriggerEntry} (h : e.inTime now)
    (stays : e.fallsDue (now + 1) = false) : e.inTime (now + 1) ∧ (e.due - now).toNat = (e.due - (now + 1)).toNat + 1 := by
  have := h.toGo
  obtain ⟨hdue, hnow⟩ := h
  rw [TriggerEntry.fallsDue, Bool.and_eq_false_iff, ← Bool.not_eq_true, ← Bool.not_eq_true, laterThan_iff,
    notEarlier_iff] at stays
  unfold TriggerEntry.inTime
  bv_omega

/-- A new entry is in time, seen from the count of its admission and from the count before (log entry 5). -/
theorem TriggerEntry.inTime_new {now admitted : FrameCount} (h : admitted = now ∨ admitted = now + 1) (offset : Fin 4096)
    (kind : TriggerKind) :
    TriggerEntry.inTime now { due := dueFrame admitted offset, admitted := admitted, kind := kind } := by
  have := offset.isLt
  unfold TriggerEntry.inTime dueFrame
  rcases h with rfl | rfl <;> bv_omega

/-- Near the present count, a later due frame is one with more frames to go (R104). -/
theorem laterThan_iff_toGo {now x y : FrameCount} (hx : (x - now).toNat ≤ 4096) (hy : (y - now).toNat ≤ 4096) :
    laterThan x y = true ↔ (y - now).toNat < (x - now).toNat := by
  rw [laterThan_iff]
  bv_omega

/-! Queues in order -/

/-- A Trigger Queue as the manual has it, seen from frame count `now`: at most 16 entries, by their frames to go, each in time
(R105, R110). -/
structure QueueInOrder (now : FrameCount) (q : List TriggerEntry) : Prop where
  bound : q.length ≤ 16
  rising : q.Pairwise fun e f => (e.due - now).toNat ≤ (f.due - now).toNat
  timely : ∀ e ∈ q, e.inTime now

theorem QueueInOrder.nil (now : FrameCount) : QueueInOrder now [] := ⟨by simp, .nil, by simp⟩

theorem QueueInOrder.filter {now : FrameCount} {q : List TriggerEntry} (h : QueueInOrder now q) (p : TriggerEntry → Bool) :
    QueueInOrder now (q.filter p) :=
  ⟨(List.length_filter_le p q).trans h.bound, h.rising.filter p, fun e he => h.timely e (List.mem_filter.mp he).1⟩

/-- An entry in time enters a queue that has room at its place (R110). -/
theorem QueueInOrder.insert {now : FrameCount} {q : List TriggerEntry} (h : QueueInOrder now q) (room : q.length < 16)
    {e : TriggerEntry} (he : e.inTime now) : QueueInOrder now (insertTrigger e q) := by
  have later : ∀ x ∈ q, laterThan x.due e.due = true ↔ (e.due - now).toNat < (x.due - now).toNat :=
    fun x hx => laterThan_iff_toGo (h.timely x hx).toGo_le he.toGo_le
  refine ⟨by rw [insertTrigger_length]; omega, ?_, fun x hx => ?_⟩
  · obtain ⟨before, after, hq, placed, notLater, firstLater⟩ := insertTrigger_split e q
    have rising := h.rising
    rw [hq, List.pairwise_append] at rising
    obtain ⟨risingBefore, risingAfter, across⟩ := rising
    have fromBefore : ∀ x ∈ before, (x.due - now).toNat ≤ (e.due - now).toNat := fun x hx => by
      have : ¬laterThan x.due e.due = true := by rw [notLater x hx]; nofun
      rw [later x (hq ▸ List.mem_append_left after hx)] at this
      omega
    have toAfter : ∀ x ∈ after, (e.due - now).toNat ≤ (x.due - now).toNat := fun x hx => by
      cases after with
      | nil => cases hx
      | cons a rest =>
        have first := (later a (hq ▸ List.mem_append_right before List.mem_cons_self)).mp (firstLater a rfl)
        rcases List.mem_cons.mp hx with rfl | hx
        · exact first.le
        · exact first.le.trans ((List.pairwise_cons.mp risingAfter).1 x hx)
    rw [placed, List.pairwise_append, List.pairwise_cons]
    refine ⟨risingBefore, ⟨toAfter, risingAfter⟩, fun x hx y hy => ?_⟩
    rcases List.mem_cons.mp hy with rfl | hy
    · exact fromBefore x hx
    · exact across x hx y hy
  · rcases mem_insertTrigger.mp hx with rfl | hx
    · exact he
    · exact h.timely x hx

/-- At the next count the queue is in order once the entries that fall due have left it (R105, R114). -/
theorem QueueInOrder.next {now : FrameCount} {q : List TriggerEntry} (h : QueueInOrder now q) :
    QueueInOrder (now + 1) (q.filter fun e => !e.fallsDue (now + 1)) := by
  have left := h.filter fun e => !e.fallsDue (now + 1)
  have next : ∀ e ∈ q.filter (fun e => !e.fallsDue (now + 1)),
      e.inTime (now + 1) ∧ (e.due - now).toNat = (e.due - (now + 1)).toNat + 1 := fun e he => by
    obtain ⟨hq, stays⟩ := List.mem_filter.mp he
    exact (h.timely e hq).next (by simpa using stays)
  refine ⟨left.bound, left.rising.imp_of_mem fun {e f} he hf hle => ?_, fun e he => (next e he).1⟩
  have := (next e he).2
  have := (next f hf).2
  omega

theorem State.triggersOrdered_iff (s : State) :
    s.triggersOrdered ↔ QueueInOrder s.frameCount s.triggers ∧ (s.lock ≠ .locked → s.triggers = []) :=
  ⟨fun ⟨bound, rising, timely, quiet⟩ => ⟨⟨bound, rising, timely⟩, quiet⟩,
    fun ⟨⟨bound, rising, timely⟩, quiet⟩ => ⟨bound, rising, timely, quiet⟩⟩

/-! A LOCKED station at work -/

/-- A LOCKED station at work at frame count `count`, which is `now` or the next: its Trigger Queue in order seen from `now`, its
Cue Out list within 4 entries. -/
structure State.WorksInOrder (now count : FrameCount) (s : State) : Prop where
  locked : s.lock = .locked
  queue : QueueInOrder now s.triggers
  list : s.cueOut.length ≤ 4
  counted : s.frameCount = count
  near : count = now ∨ count = now + 1

section
variable {now count : FrameCount} {s t : State}

theorem State.WorksInOrder.of_fields (h : s.WorksInOrder now count) (hl : t.lock = s.lock) (hq : t.triggers = s.triggers)
    (hc : t.cueOut = s.cueOut) (hn : t.frameCount = s.frameCount) : t.WorksInOrder now count :=
  ⟨hl.trans h.locked, hq ▸ h.queue, hc ▸ h.list, hn.trans h.counted, h.near⟩

theorem State.WorkFollows.worksInOrder (hw : s.WorkFollows t) (h : s.WorksInOrder now count) : t.WorksInOrder now count := by
  unfold State.WorkFollows at hw
  rw [hw]
  exact h.of_fields rfl rfl rfl rfl

theorem State.CaptureFollows.worksInOrder (hw : s.CaptureFollows t) (h : s.WorksInOrder now count) :
    t.WorksInOrder now count := hw.work.worksInOrder h

theorem State.WorksInOrder.offerEvents (h : s.WorksInOrder now count) (es : List Event) :
    (s.offerEvents es).WorksInOrder now count := h.of_fields (by simp) (by simp) (by simp) (by simp)

theorem State.WorksInOrder.dropDue (h : s.WorksInOrder now count) : s.dropDue.WorksInOrder now count :=
  ⟨h.locked, h.queue.filter _, h.list, h.counted, h.near⟩

theorem State.WorksInOrder.enterTrigger (h : s.WorksInOrder now count) (room : s.triggers.length < 16)
    (offset : Fin 4096) (kind : TriggerKind) : (s.enterTrigger offset kind).WorksInOrder now count :=
  ⟨h.locked, h.queue.insert room (TriggerEntry.inTime_new (h.counted ▸ h.near) offset kind), h.list, h.counted, h.near⟩

/-- The Trigger Unit's part of an arrival keeps the order and the bound (R113, R118, R119). -/
theorem State.WorksInOrder.admitAll (h : s.WorksInOrder now count) (awaited : Nat → Fin 4096 → Bool) (endCues : List EndCue)
    (cueWord : List (Fin 4096 × Fin 4096)) : (admitAll awaited endCues cueWord s).1.WorksInOrder now count := by
  simp only [Machine.admitAll]
  have offered := offerCues_induction (P := State.WorksInOrder now count)
    (fun _ cue offset room h => h.enterTrigger room offset (.cue cue)) awaited
    (endCues.map (fun c => (c.cue, c.offset)) ++ cueWord) 0 s h
  have bound := placeCues_bound offered.list endCues
  rw [placeCues_frame]
  exact ⟨offered.locked, offered.queue, bound, offered.counted, offered.near⟩

/-- What follows the work of the lanes keeps the order, whatever that work was (R113, R187). -/
theorem LaneWork.Follows.finishLanes {w v : LaneWork} (hv : w.Follows v) (h : w.st.WorksInOrder now count)
    (es : List Event) : (finishLanes es v).WorksInOrder now count := by
  simp only [Machine.finishLanes]
  refine State.WorksInOrder.offerEvents (State.WorksInOrder.admitAll ?_ ..) _
  rw [State.freeDoomed_frame]
  exact (hv.work.worksInOrder h).of_fields rfl rfl rfl rfl

/-- Work done at the next count for one event keeps the order seen from the present count (log entry 5). -/
theorem State.WorksInOrder.atNextCount {f : State → State} (h : s.WorksInOrder now now)
    (hf : ∀ u : State, u.WorksInOrder now (now + 1) → (f u).WorksInOrder now (now + 1)) :
    (s.atNextCount f).WorksInOrder now now := by
  obtain ⟨locked, queue, list, -, -⟩ := hf { s with frameCount := s.frameCount + 1 }
    ⟨h.locked, h.queue, h.list, congrArg (· + 1) h.counted, .inr rfl⟩
  exact ⟨locked, queue, list, h.counted, .inl rfl⟩

theorem State.AfterOrder.worksInOrder (ho : s.AfterOrder t) (h : s.WorksInOrder now count) : t.WorksInOrder now count := by
  obtain ⟨frame, -, queues⟩ := ho
  have lock : t.lock = s.lock := by rw [frame]
  have counted : t.frameCount = s.frameCount := by rw [frame]
  rcases queues with ⟨hq, hc⟩ | ⟨hq, hc⟩ | ⟨delay, kind, room, hq, hc⟩
  · exact h.of_fields lock hq hc counted
  · exact ⟨lock.trans h.locked, hq ▸ .nil now, by rw [hc]; simp, counted.trans h.counted, h.near⟩
  · exact (h.enterTrigger room delay kind).of_fields lock hq hc counted

end

/-! The arrival -/

/-- The frame work of an arrival, once the entries that fall due at its count have left the queue (R114). -/
theorem worksInOrder_frameWork {s : State} {now : FrameCount} (programme : SampleSet) (word : Option ControlWord)
    (h : s.dropDue.WorksInOrder now now) : (frameWork programme word s).1.WorksInOrder now now := by
  have started : ((arbitrate s word).emit s.dropDue).WorksInOrder now now := by
    cases arbitrate s word with
    | cueOut e => exact ⟨h.locked, h.queue, s.cueOut.length_tail ▸ (Nat.sub_le ..).trans h.list, h.counted, h.near⟩
    | report w => exact h.of_fields rfl rfl rfl rfl
    | pass w => exact h
    | idle => exact h
  simp only [frameWork]
  rw [offerAndDepart_frame, orderUnitWork_frame]
  refine State.WorksInOrder.of_fields (State.WorksInOrder.admitAll ?_ ..) rfl rfl rfl rfl
  exact ((returnsWork_follows _ _).worksInOrder started).of_fields rfl rfl rfl rfl

/-- Everything an arrival while LOCKED can be: that of a good frame, a concealed one, or the link loss (R130). -/
theorem arriveLocked_cases (line : LineFrame) (s : State) :
    ((frameOfLine line).good ∧ arriveLocked line s = arriveGood (frameOfLine line).samples (frameOfLine line).control s)
      ∨ (¬(frameOfLine line).good ∧ s.badRun < 2
        ∧ arriveLocked line s = (frameWork s.lastGood none (s.received s.lastGood (s.badRun + 1))).1)
      ∨ (¬(frameOfLine line).good ∧ 2 ≤ s.badRun ∧ arriveLocked line s = loseLink (s.leftLocked line)) := by
  by_cases good : (frameOfLine line).good
  · exact .inl ⟨good, arriveLocked_good s good⟩
  · by_cases few : s.badRun + 1 < 3
    · exact .inr (.inl ⟨good, by omega, by rw [arriveLocked, if_neg good, if_pos few]; rfl⟩)
    · exact .inr (.inr ⟨good, by omega, by rw [arriveLocked, if_neg good, if_neg few]; rfl⟩)

theorem arriveGood_eq (samples : SampleSet) (word : ControlWord) (s : State) : arriveGood samples word s
    = takeComplete (frameWork samples (some word) (s.received samples 0)).2
        (frameWork samples (some word) (s.received samples 0)).1 := rfl

/-- An arrival that keeps the lock leaves the queue in order at its own count. -/
theorem worksInOrder_received {s : State} (h : s.WorksInOrder s.frameCount s.frameCount) (samples : SampleSet) (run : Nat)
    (word : Option ControlWord) :
    (frameWork samples word (s.received samples run)).1.WorksInOrder (s.frameCount + 1) (s.frameCount + 1) :=
  worksInOrder_frameWork samples word ⟨h.locked, h.queue.next, h.list, rfl, .inl rfl⟩

theorem worksInOrder_arriveGood {s : State} (h : s.WorksInOrder s.frameCount s.frameCount) (samples : SampleSet)
    (word : ControlWord) : (arriveGood samples word s).WorksInOrder (s.frameCount + 1) (s.frameCount + 1) :=
  (afterOrder_takeComplete _ _).worksInOrder (worksInOrder_received h samples 0 (some word))

/-- The loss of the link leaves both queues empty (R122). -/
theorem loseLink_queues (s : State) : (loseLink s).triggers = [] ∧ (loseLink s).cueOut = [] := by
  rw [loseLink_eq]
  simp only [State.offerEvents_triggers, State.offerEvents_cueOut, and_self]

/-! The rows of the table -/

/-- A state as the statement asks for it before and after every step. -/
def State.inOrder (s : State) : Prop := s.triggersOrdered ∧ s.cueOut.length ≤ 4

theorem State.inOrder.works {s : State} (h : s.inOrder) (hl : s.lock = .locked) : s.WorksInOrder s.frameCount s.frameCount :=
  ⟨hl, ((s.triggersOrdered_iff).mp h.1).1, h.2, rfl, .inl rfl⟩

theorem State.WorksInOrder.inOrder {s : State} {now : FrameCount} (h : s.WorksInOrder now now) : s.inOrder :=
  ⟨(s.triggersOrdered_iff).mpr ⟨h.counted ▸ h.queue, fun hl => absurd h.locked hl⟩, h.list⟩

/-- An empty queue is in order at any count. -/
theorem State.inOrder_of_empty {s : State} (hq : s.triggers = []) (hc : s.cueOut.length ≤ 4) : s.inOrder :=
  ⟨(s.triggersOrdered_iff).mpr ⟨hq ▸ .nil _, fun _ => hq⟩, hc⟩

/-- While the receiver is not LOCKED, what leaves the queues alone leaves the empty queue in order (R122). -/
theorem State.inOrder.of_unlocked {s t : State} (h : s.inOrder) (hl : s.lock ≠ .locked) (hq : t.triggers = s.triggers)
    (hc : t.cueOut = s.cueOut) : t.inOrder :=
  State.inOrder_of_empty (hq.trans (((s.triggersOrdered_iff).mp h.1).2 hl)) (hc ▸ h.2)

/-- A row that works while LOCKED alone keeps the order if its work does. -/
theorem State.inOrder.whenLocked {s : State} (h : s.inOrder) {f : State → State}
    (hf : ∀ {now}, s.WorksInOrder now now → (f s).WorksInOrder now now) : (whenLocked f s).inOrder := by
  by_cases hl : s.lock = .locked
  · rw [whenLocked_of_locked f hl]
    exact (hf (h.works hl)).inOrder
  · rwa [whenLocked_of_not f hl]

section
variable {now : FrameCount} {s : State} (h : s.WorksInOrder now now)
include h

theorem worksInOrder_meetDeadline : (meetDeadline s).WorksInOrder now now := by
  unfold meetDeadline
  split
  · exact h
  · split
    · have discarded : State.WorksInOrder now now { s with assembly := none } := h.of_fields rfl rfl rfl rfl
      exact discarded.offerEvents [_]
    · exact h

theorem worksInOrder_releaseLane (i : Fin 8) : (releaseLane i s).WorksInOrder now now := by
  unfold releaseLane
  split
  · exact ((LaneWork.follows_applyReleaseOrder i (LaneWork.start s)).trans (LaneWork.follows_endIfDue i _)).finishLanes h []
  · exact h

theorem worksInOrder_abortLane (i : Fin 8) : (abortLane i s).WorksInOrder now now := by
  unfold abortLane
  split
  · exact (LaneWork.follows_applyAbortOrder i (LaneWork.start s)).finishLanes h []
  · exact h

theorem worksInOrder_reachEnd (i : Fin 8) : (reachEnd i s).WorksInOrder now now := by
  unfold reachEnd
  dsimp only
  split
  · exact (LaneWork.follows_endRecord i (LaneWork.start s)).finishLanes h []
  · split
    · exact h.atNextCount fun arrived ha =>
        ((LaneWork.follows_advanceLane i (LaneWork.start arrived)).trans (LaneWork.follows_endRecord i _)).finishLanes ha []
    · exact h

theorem worksInOrder_deliverDue : (deliverDue s).WorksInOrder now now := by
  refine h.atNextCount fun arrived ha => ?_
  have started := (State.captureFollows_eachUnit
    (fun u s' => s'.captureFollows_startIf (arrivalPlan arrived s.lastGood).delivered[u] u) arrived.dropDue).worksInOrder
      ha.dropDue
  exact (triggersRow_follows _ (LaneWork.start _)).finishLanes started _

theorem worksInOrder_completeUnit (u : Fin 2) : (completeUnit u s).WorksInOrder now now := by
  unfold completeUnit
  dsimp only
  split
  · exact ((s.captureFollows_completeCapture u).worksInOrder h).offerEvents _
  · split
    · exact ((s.captureFollows_writeUnit s.lastGood u).worksInOrder h).offerEvents _
    · exact h

end

theorem inOrder_arriveLocked {s : State} (h : s.inOrder) (hl : s.lock = .locked) (line : LineFrame) :
    (arriveLocked line s).inOrder := by
  have works := h.works hl
  rcases arriveLocked_cases line s with ⟨-, arrived⟩ | ⟨-, -, arrived⟩ | ⟨-, -, arrived⟩ <;> rw [arrived]
  · exact (worksInOrder_arriveGood works _ _).inOrder
  · exact (worksInOrder_received works _ _ none).inOrder
  · obtain ⟨noTriggers, noCues⟩ := loseLink_queues (s.leftLocked line)
    exact State.inOrder_of_empty noTriggers (by rw [noCues]; simp)

/-- A restart leaves both queues empty, whatever the line then sends (R132). -/
theorem inOrder_of_restart {s t : State} {station : BitVec 5} (hq : t.triggers = (s.restart station).triggers)
    (hc : t.cueOut = (s.restart station).cueOut) : t.inOrder :=
  State.inOrder_of_empty hq (by rw [hc]; exact Nat.zero_le 4)

/-- Bits of a search reach the receiver and the line alone, and outside SEARCH none is taken (R126). -/
theorem inOrder_searchBits {s : State} (h : s.inOrder) (bits : List Bool) : (bits.foldl searchBit s).inOrder := by
  by_cases hl : s.lock = .search
  · have frame := searchBits_frame bits s
    exact h.of_unlocked (by rw [hl]; nofun) (by rw [frame]) (by rw [frame])
  · rwa [searchBits_of_lock_ne bits hl]

theorem inOrder_execConfirmFrame {line : LineFrame} {s t : State} (h : s.inOrder) (hx : execConfirmFrame line s = .next t) :
    t.inOrder := by
  simp only [execConfirmFrame] at hx
  split at hx
  · cases hx; exact h
  · rename_i hl
    repeat' split at hx
    all_goals cases hx
    · exact h.of_unlocked hl (State.offerEvents_triggers _ [_]) (State.offerEvents_cueOut _ [_])
    all_goals exact h.of_unlocked hl rfl rfl

theorem inOrder_exec_of_no_order {c : Instr} (hc : orderParts c = none) {s t : State} (h : s.inOrder)
    (hx : exec c s = .next t) : t.inOrder := by
  have departs : ∀ choice, freeSlotAt s = some choice → (arriveIdle s).inOrder := fun choice hchoice => by
    by_cases hl : s.lock = .locked
    · exact (worksInOrder_arriveGood (h.works hl) _ _).inOrder
    · rw [freeSlotAt_of_lock_ne hl] at hchoice
      cases hchoice
  cases c with
  | powerOn straps => cases hx; exact inOrder_of_restart (s := s) (station := straps) rfl rfl
  | resetAssert => cases hx; exact inOrder_of_restart (s := s) (station := s.station) rfl rfl
  | resetRelease straps =>
    simp only [exec, execResetRelease] at hx
    split at hx
    · cases hx; exact inOrder_of_restart (s := s) (station := straps) rfl rfl
    · cases hx; exact h
  | searchCandidate skipped candidate => cases hx; exact inOrder_searchBits h _
  | confirmFrame line => exact inOrder_execConfirmFrame h hx
  | frameArrival line =>
    simp only [exec, execFrameArrival] at hx
    split at hx
    · rename_i hl; cases hx; exact inOrder_arriveLocked h hl line
    · rename_i hl; cases hx; exact h.of_unlocked hl rfl rfl
  | timeout => cases hx; exact h.whenLocked worksInOrder_meetDeadline
  | applyRelease i => cases hx; exact h.whenLocked fun w => worksInOrder_releaseLane w i
  | applyAbort i => cases hx; exact h.whenLocked fun w => worksInOrder_abortLane w i
  | recordEnd i => cases hx; exact h.whenLocked fun w => worksInOrder_reachEnd w i
  | triggerFallsDue => cases hx; exact h.whenLocked worksInOrder_deliverDue
  | captureComplete u => cases hx; exact h.whenLocked fun w => worksInOrder_completeUnit w u
  | cueOutSent =>
    rw [exec] at hx
    rcases execCueOutSent_cases s with ⟨e, he, h'⟩ | ⟨-, h'⟩ <;> rw [h'] at hx <;> cases hx
    · exact departs _ he
    · exact h
  | reportWordSent =>
    rw [exec] at hx
    rcases execReportWordSent_cases s with ⟨r, hr, h'⟩ | ⟨-, h'⟩ <;> rw [h'] at hx <;> cases hx
    · exact departs _ hr
    · exact h
  | _ => cases hc

theorem inOrder_exec {c : Instr} {s t : State} (h : s.inOrder) (hx : exec c s = .next t) : t.inOrder := by
  cases hc : orderParts c with
  | none => exact inOrder_exec_of_no_order hc h hx
  | some parts =>
    obtain ⟨code, seq, body⟩ := parts
    rw [exec_of_orderParts hc] at hx
    cases hx
    exact h.whenLocked (afterOrder_takeOrder code seq body s).worksInOrder

/-- Settles O9: an arrival drops what falls due and so moves the order on by one count (`QueueInOrder.next`), every entry is
placed in order (`QueueInOrder.insert`), and no other work reaches the queue but to empty it. -/
theorem stepKeepsTriggerQueueOrdered : Obligations.StepKeepsTriggerQueueOrdered := by
  intro s t ordered bounded h
  have before : s.inOrder := ⟨ordered, bounded⟩
  unfold step at h
  split at h
  · cases h
    exact before
  · rename_i c rest _
    exact inOrder_exec (s := { s with pending := rest }) before h

/-- Settles O58: `n` frames after its admission the count is later than it by `n`, and has reached the due frame just when the
offset is at most `n`; both differences stay below 2^31. -/
theorem entryFallsDueOnItsFrame : Obligations.EntryFallsDueOnItsFrame := by
  intro a offset kind n hn
  have := offset.isLt
  refine ⟨?_, ?_⟩
  · simp only [dueFrame, BitVec.toNat_add, BitVec.toNat_ofNat]
    omega
  · simp only [TriggerEntry.fallsDue, dueFrame, Bool.and_eq_true, laterThan_iff, notEarlier_iff]
    bv_omega

end Sys2Proof.Machine
end

section
/-! The orders that reach the Trigger Unit: MAP CUE, UNMAP CUE, READ CUE MAP, TAKE and READ TRIGGERS (R107 to R110, R117, R124). -/

namespace Sys2Proof.Machine

/-! The fields of the cue orders (R107 to R109) -/

theorem cueField_eq_some {w : Payload} {c : Fin 4096} : cueField w = some c ↔ w.toNat = c.val ∧ w.toNat ≠ 0 := by
  unfold cueField
  split
  · exact iff_of_false nofun fun h => h.2 (by assumption)
  · rw [fieldBelow_eq_some, and_iff_left (by assumption)]

/-- A cue number of 1 to 4095, sent as a payload, is read back. -/
theorem cueField_ofNat {c : Fin 4096} (h : c ≠ 0) : cueField (BitVec.ofNat 24 c.val) = some c := by
  have number : (BitVec.ofNat 24 c.val).toNat = c.val := toNat_payload (by omega)
  exact cueField_eq_some.mpr ⟨number, by rw [number]; exact fun h0 => h (Fin.ext h0)⟩

theorem cueField_of_bad {w : Payload} (h : w.toNat = 0 ∨ 4095 < w.toNat) : cueField w = none := by
  refine Option.eq_none_iff_forall_ne_some.mpr fun c hc => ?_
  obtain ⟨number, nonzero⟩ := cueField_eq_some.mp hc
  have := c.isLt
  omega

theorem toNat_of_policyField {w : Payload} {p : Policy} (h : policyField w = some p) : w.toNat = p.code := by
  unfold policyField at h
  split at h <;> cases h <;> assumption

theorem Policy.code_le (p : Policy) : p.code ≤ 2 := by cases p <;> decide

/-- A cue is mapped when an entry of the map has its number (R106). -/
theorem mapped_isSome_iff (s : State) (c : Fin 4096) :
    (s.mapped c).isSome = true ↔ c ∈ s.cueMap.map CueMapEntry.cue := by
  rw [Option.isSome_iff_ne_none, ne_eq, mapped_eq_none_iff, not_not]

/-! MAP CUE (R107) -/

theorem orderMapCue_of_length {body : List Payload} (h : body.length ≠ 4) (s : State) :
    orderMapCue body s = .refuse .badLength s := by
  unfold orderMapCue
  split
  · exact absurd rfl h
  · rfl

theorem orderMapCue_of_field {body : List Payload} (hlen : body.length = 4)
    (h : (body.getD 0 0).toNat = 0 ∨ 4095 < (body.getD 0 0).toNat ∨ 7 < (body.getD 1 0).toNat ∨ 255 < (body.getD 2 0).toNat
      ∨ 2 < (body.getD 3 0).toNat) (s : State) : orderMapCue body s = .refuse .badField s := by
  match body, hlen with
  | [cue, lane, record, policy], _ =>
    simp only [List.getD_cons_zero, List.getD_cons_succ] at h
    simp only [orderMapCue]
    split
    · rename_i c i r p hc hi hr hp
      obtain ⟨number, nonzero⟩ := cueField_eq_some.mp hc
      rw [fieldBelow_eq_some] at hi hr
      have := toNat_of_policyField hp
      have := p.code_le
      omega
    · rfl

/-- MAP CUE with the words of an entry. -/
theorem orderMapCue_of_entry {e : CueMapEntry} (h : e.cue ≠ 0) (s : State) :
    orderMapCue (toPayloads [e.cue.val, e.lane.val, e.record.val, e.policy.code]) s
      = if e.cue ∈ s.cueMap.map CueMapEntry.cue then .done { s with cueMap := replaceEntry e s.cueMap }
        else if s.cueMap.length < 64 then .done { s with cueMap := s.cueMap ++ [e] }
        else .refuse .mapFull s := by
  simp only [toPayloads, List.map_cons, List.map_nil, orderMapCue, cueField_ofNat h, fieldBelow_ofNat e.lane (by decide),
    fieldBelow_ofNat e.record (by decide), policyField_ofNat, mapped_isSome_iff]

/-! UNMAP CUE (R108) -/

theorem orderUnmapCue_of_length {body : List Payload} (h : body.length ≠ 1) (s : State) :
    orderUnmapCue body s = .refuse .badLength s := by
  unfold orderUnmapCue
  split
  · exact absurd rfl h
  · rfl

theorem orderUnmapCue_of_field {w : Payload} (h : w.toNat = 0 ∨ 4095 < w.toNat) (s : State) :
    orderUnmapCue [w] s = .refuse .badField s := by
  simp only [orderUnmapCue, cueField_of_bad h]

theorem orderUnmapCue_of_cue {c : Fin 4096} (h : c ≠ 0) (s : State) : orderUnmapCue (toPayloads [c.val]) s
    = if c ∈ s.cueMap.map CueMapEntry.cue then .done { s with cueMap := s.cueMap.filter fun e => e.cue ≠ c }
      else .refuse .notFound s := by
  have kept : (s.cueMap.filter fun e => e.cue != c) = s.cueMap.filter fun e => e.cue ≠ c :=
    List.filter_congr fun e _ => by rw [Bool.eq_iff_iff]; simp
  simp only [toPayloads, List.map_cons, List.map_nil, orderUnmapCue, cueField_ofNat h, Option.isNone_iff_eq_none,
    mapped_eq_none_iff, kept]
  split_ifs <;> rfl

/-- Settles O28: the two orders on the bodies that their tests refuse, and on the words of an entry or a cue number. -/
theorem mapAndUnmapCue : Obligations.MapAndUnmapCue := by
  unfold Obligations.MapAndUnmapCue
  intro coded s seq body f
  have codes : ∀ p, coded p = p.code := fun p => by cases p <;> rfl
  refine ⟨fun fresh => ⟨fun hlen => ?_, fun hlen hfield => ?_, fun e he hbody => ?_⟩,
    fun fresh => ⟨fun hlen => ?_, fun hlen hfield => ?_, fun c hc hbody => ?_⟩⟩
    <;> refine congrArg Host.Outcome.next ?_
  · exact takeChange_refused fresh (orderMapCue_of_length hlen s)
  · exact takeChange_refused fresh (orderMapCue_of_field hlen hfield s)
  · have outcome := orderMapCue_of_entry he s
    rw [← codes, ← hbody] at outcome
    split_ifs at outcome ⊢
    · exact takeChange_done fresh outcome
    · exact takeChange_done fresh outcome
    · exact takeChange_refused fresh outcome
  · exact takeChange_refused fresh (orderUnmapCue_of_length hlen s)
  · rw [getD_of_length_eq_one hlen]
    exact takeChange_refused fresh (orderUnmapCue_of_field hfield s)
  · have outcome := orderUnmapCue_of_cue hc s
    rw [← hbody] at outcome
    split_ifs at outcome ⊢
    · exact takeChange_done fresh outcome
    · exact takeChange_refused fresh outcome

/-! READ CUE MAP (R109) -/

theorem insertByCue_perm (e : CueMapEntry) (map : List CueMapEntry) : (insertByCue e map).Perm (e :: map) := by
  induction map with
  | nil => exact .refl _
  | cons h rest ih =>
    unfold insertByCue
    split
    · exact .refl _
    · exact (ih.cons h).trans (.swap e h rest)

theorem sortByCue_perm (map : List CueMapEntry) : (sortByCue map).Perm map := by
  induction map with
  | nil => exact .refl _
  | cons e rest ih => exact (insertByCue_perm e _).trans (ih.cons e)

theorem insertByCue_sorted (e : CueMapEntry) {map : List CueMapEntry} (h : map.Pairwise fun a b => a.cue ≤ b.cue) :
    (insertByCue e map).Pairwise fun a b => a.cue ≤ b.cue := by
  induction map with
  | nil => exact List.pairwise_singleton _ e
  | cons f rest ih =>
    obtain ⟨least, sorted⟩ := List.pairwise_cons.mp h
    unfold insertByCue
    split
    · rename_i lt
      refine List.pairwise_cons.mpr ⟨fun x hx => ?_, h⟩
      rcases List.mem_cons.mp hx with rfl | hx
      · exact lt.le
      · exact lt.le.trans (least x hx)
    · rename_i ge
      refine List.pairwise_cons.mpr ⟨fun x hx => ?_, ih sorted⟩
      rcases List.mem_cons.mp ((insertByCue_perm e rest).mem_iff.mp hx) with rfl | hx
      · exact not_lt.mp ge
      · exact least x hx

theorem sortByCue_sorted (map : List CueMapEntry) : (sortByCue map).Pairwise fun a b => a.cue ≤ b.cue := by
  induction map with
  | nil => exact .nil
  | cons e rest ih => exact insertByCue_sorted e ih

/-- A map without double numbers, sorted, rises strictly. -/
theorem sortByCue_rising {map : List CueMapEntry} (h : (map.map CueMapEntry.cue).Nodup) :
    (sortByCue map).Pairwise fun a b => a.cue < b.cue := by
  have distinct : (sortByCue map).Pairwise fun a b => a.cue ≠ b.cue :=
    List.pairwise_map.mp (((sortByCue_perm map).map CueMapEntry.cue).nodup_iff.mpr h)
  exact (sortByCue_sorted map).imp₂ (fun _ _ le ne => lt_of_le_of_ne le ne) distinct

/-- The entries that READ CUE MAP lists from a starting number. -/
def State.listedCues (s : State) (start : Fin 4096) : List CueMapEntry :=
  ((sortByCue s.cueMap).filter fun e => start ≤ e.cue).take 30

theorem State.listedCues_spec {s : State} (h : s.cueMapSound) (start : Fin 4096) :
    (s.listedCues start).Pairwise (fun a b => a.cue < b.cue)
      ∧ (s.listedCues start).length = min 30 (s.cueMap.countP fun e => start ≤ e.cue)
      ∧ (∀ e ∈ s.listedCues start, e ∈ s.cueMap ∧ start ≤ e.cue)
      ∧ ∀ e ∈ s.cueMap, start ≤ e.cue → e ∈ s.listedCues start ∨ ∀ x ∈ s.listedCues start, x.cue < e.cue := by
  obtain ⟨-, nodup, -⟩ := h
  have rising := (sortByCue_rising nodup).filter fun e => decide (start ≤ e.cue)
  have sorted := sortByCue_perm s.cueMap
  have mem : ∀ e, e ∈ (sortByCue s.cueMap).filter (fun e => decide (start ≤ e.cue)) ↔ e ∈ s.cueMap ∧ start ≤ e.cue := by
    simp [List.mem_filter, sorted.mem_iff]
  have count : ((sortByCue s.cueMap).filter fun e => decide (start ≤ e.cue)).length
      = s.cueMap.countP fun e => start ≤ e.cue := by rw [← List.countP_eq_length_filter, sorted.countP_eq]
  unfold State.listedCues
  generalize (sortByCue s.cueMap).filter (fun e => decide (start ≤ e.cue)) = all at *
  refine ⟨rising.sublist (List.take_sublist 30 all), by rw [List.length_take, count],
    fun e he => (mem e).mp (List.mem_of_mem_take he), fun e he hs => ?_⟩
  have split := List.take_append_drop 30 all
  rcases List.mem_append.mp (split ▸ (mem e).mpr ⟨he, hs⟩) with first | later
  · exact .inl first
  · rw [← split, List.pairwise_append] at rising
    exact .inr fun x hx => rising.2.2 x hx e later

theorem orderReadCueMap_of_length {body : List Payload} (h : 1 < body.length) (s : State) :
    orderReadCueMap body s = .refuse .badLength s := by
  unfold orderReadCueMap
  split
  · exact absurd h (by decide)
  · exact absurd h (by simp)
  · rfl

theorem orderReadCueMap_of_field {w : Payload} (h : w.toNat = 0 ∨ 4095 < w.toNat) (s : State) :
    orderReadCueMap [w] s = .refuse .badField s := by
  simp only [orderReadCueMap, cueField_of_bad h]

theorem orderReadCueMap_of_start {body : List Payload} {start : Fin 4096}
    (h : body = [] ∧ start = 1 ∨ body = toPayloads [start.val] ∧ start ≠ 0) (s : State) :
    orderReadCueMap body s = .read ([s.cueMap.length, (s.listedCues start).length]
      ++ (s.listedCues start).flatMap CueMapEntry.words) s := by
  rcases h with ⟨rfl, rfl⟩ | ⟨rfl, nonzero⟩
  · rfl
  · simp only [toPayloads, List.map_cons, List.map_nil, orderReadCueMap, cueField_ofNat nonzero]
    rfl

/-- Settles O29: the map sorted is the map in strictly rising cue number, and its first 30 entries from the start are listed. -/
theorem readCueMapListsInOrder : Obligations.ReadCueMapListsInOrder := by
  intro s seq body taken sound
  refine ⟨fun hlen => ?_, fun w hbody hw => ?_, fun start hstart => ?_⟩
  · exact congrArg Host.Outcome.next (takeRead_told taken (orderReadCueMap_of_length hlen s))
  · subst hbody
    exact congrArg Host.Outcome.next (takeRead_told taken (orderReadCueMap_of_field hw s))
  · exact ⟨s.listedCues start,
      congrArg Host.Outcome.next (takeRead_told taken (orderReadCueMap_of_start hstart s)), s.listedCues_spec sound start⟩

/-! TAKE (R110, R117) -/

theorem orderTake_of_length {body : List Payload} (h : body.length ≠ 4) (s : State) :
    orderTake body s = .refuse .badLength s := by
  unfold orderTake
  split
  · exact absurd rfl h
  · rfl

theorem orderTake_of_field {body : List Payload} (hlen : body.length = 4)
    (h : 7 < (body.getD 0 0).toNat ∨ 255 < (body.getD 1 0).toNat ∨ 4095 < (body.getD 2 0).toNat
      ∨ 2 < (body.getD 3 0).toNat) (s : State) : orderTake body s = .refuse .badField s := by
  match body, hlen with
  | [lane, record, delay, policy], _ =>
    simp only [List.getD_cons_zero, List.getD_cons_succ] at h
    simp only [orderTake]
    split
    · rename_i i r d p hi hr hd hp
      rw [fieldBelow_eq_some] at hi hr hd
      have := toNat_of_policyField hp
      have := p.code_le
      omega
    · rfl

theorem orderTake_of_fields (lane : Fin 8) (record : Fin 256) (delay : Fin 4096) (policy : Policy) (s : State) :
    orderTake (toPayloads [lane.val, record.val, delay.val, policy.code]) s
      = if 16 ≤ s.triggers.length then .refuse .queueFull s
        else .done (s.enterTrigger delay (.take lane record policy)) := by
  simp only [toPayloads, List.map_cons, List.map_nil, orderTake, fieldBelow_ofNat lane (by decide),
    fieldBelow_ofNat record (by decide), fieldBelow_ofNat delay (by decide), policyField_ofNat, State.triggersFull,
    decide_eq_true_eq]

/-- Settles O30: the tests, and the place that `insertTrigger_split` gives the entry. -/
theorem takeEntersATrigger : Obligations.TakeEntersATrigger := by
  intro s seq body fresh f
  refine ⟨fun hlen => ?_, fun hlen hfield => ?_, fun lane record delay policy hbody => ?_⟩
  · exact congrArg Host.Outcome.next (takeChange_refused fresh (orderTake_of_length hlen s))
  · exact congrArg Host.Outcome.next (takeChange_refused fresh (orderTake_of_field hlen hfield s))
  · have outcome := hbody ▸ orderTake_of_fields lane record delay policy s
    refine ⟨fun full => ?_, fun room => ?_⟩
    · rw [if_pos full] at outcome
      exact congrArg Host.Outcome.next (takeChange_refused fresh outcome)
    · rw [if_neg (by omega)] at outcome
      obtain ⟨before, after, split, placed, notLater, firstLater⟩ := insertTrigger_split
        { due := dueFrame s.frameCount delay, admitted := s.frameCount, kind := .take lane record policy } s.triggers
      have entered : s.enterTrigger delay (.take lane record policy) = { s with triggers := _ } :=
        congrArg (fun q => { s with triggers := q }) placed
      rw [entered] at outcome
      exact ⟨before, after, congrArg Host.Outcome.next (takeChange_done fresh outcome), split,
        fun x hx => by rw [Bool.not_eq_true]; exact notLater x hx, firstLater⟩

/-! READ TRIGGERS (R124) -/

theorem TriggerEntry.words_eq (now : FrameCount) (e : TriggerEntry) : e.words now = match e.kind with
    | .cue n => [(e.due - now).toNat, n.val, 0]
    | .take lane record policy => [(e.due - now).toNat, 4096 + 8 * policy.code + lane.val, record.val] := by
  unfold TriggerEntry.words
  cases e.kind <;> rfl

/-- Settles O31: an empty body reads the queue, three words an entry, and no other body does. -/
theorem readTriggersListsTheQueue : Obligations.ReadTriggersListsTheQueue := by
  intro s seq body taken
  refine congrArg Host.Outcome.next ?_
  cases body with
  | nil =>
    rw [if_neg (by simp)]
    refine (takeRead_told taken rfl).trans (congrArg (s.told 22 seq .done) (congrArg (s.triggers.length :: ·) ?_))
    exact List.flatMap_congr fun e _ => e.words_eq s.frameCount
  | cons w rest =>
    rw [if_pos (by simp)]
    exact takeRead_told taken rfl

end Sys2Proof.Machine
end

section
/-! What every arrival that keeps the lock sends and leaves: the count, the frame, the reports, the word position and the Cue Out
list, by the arbiter's choice (R119, R120, R129, R130, R134, R136, R191, R193). -/

namespace Sys2Proof.Machine

/-! The frame work -/

/-- A report that leaves goes from the head of those that wait; the reports of the arrival come behind them (R187, R191). -/
theorem offerAndDepart_departs (n : Nat) (es : List Event) {s : State} {r : Report} {rest : List Report}
    (h : s.reports = r :: rest) :
    (∃ more, (offerAndDepart n true es s).reports = rest ++ more) ∧ (offerAndDepart n true es s).wordPos = 0 := by
  cases es with
  | nil => exact ⟨⟨[], by rw [offerAndDepart_of_leaves, State.dropHeadReport_reports, h, List.tail_cons, List.append_nil]⟩, rfl⟩
  | cons e es =>
    obtain ⟨first, before, -⟩ := s.offerEvents_reports ((e :: es).take (Config.offersBeforeDeparture n))
    obtain ⟨last, behind, -⟩ := State.offerEvents_reports
      (s.offerEvents ((e :: es).take (Config.offersBeforeDeparture n))).dropHeadReport
      ((e :: es).drop (Config.offersBeforeDeparture n))
    refine ⟨⟨first ++ last, behind.trans ?_⟩, State.offerEvents_wordPos ..⟩
    rw [State.dropHeadReport_reports, before, h, List.cons_append, List.tail_cons, List.append_assoc]

/-- Forwarded end cues join the Cue Out list behind the entries that wait (R119). -/
theorem placeCues_cueOut (cues : List EndCue) (s : State) : ∃ placed, (placeCues cues s).1.cueOut = s.cueOut ++ placed := by
  induction cues generalizing s with
  | nil => exact ⟨[], (List.append_nil _).symm⟩
  | cons c cues ih =>
    simp only [placeCues]
    obtain ⟨later, hlater⟩ := ih (if c.forward then s.placeCueOut c else (s, [])).1
    rw [hlater]
    split
    · rcases s.placeCueOut_cases c with ⟨-, placed⟩ | ⟨-, placed⟩ <;> rw [placed]
      · exact ⟨later, rfl⟩
      · exact ⟨_, List.append_assoc ..⟩
    · exact ⟨later, rfl⟩

theorem admitAll_cueOut (awaited : Nat → Fin 4096 → Bool) (endCues : List EndCue) (cueWord : List (Fin 4096 × Fin 4096))
    (s : State) : ∃ placed, (admitAll awaited endCues cueWord s).1.cueOut = s.cueOut ++ placed := by
  simp only [admitAll]
  obtain ⟨placed, h⟩ := placeCues_cueOut endCues
    (offerCues awaited 0 (endCues.map (fun c => (c.cue, c.offset)) ++ cueWord) s).1
  exact ⟨placed, h.trans (by rw [offerCues_frame])⟩

/-- The frame work offers the arrival's reports to the station that the arbiter's choice has left. -/
theorem frameWork_offers (programme : SampleSet) (word : Option ControlWord) (s : State) :
    let t := (frameWork programme word s).1
    (∃ mix, t.lineOut = composeFrame mix ((arbitrate s word).word s.frameCount))
      ∧ ∃ (n : Nat) (es : List Event) (u : State), u.reports = s.reports ∧ u.wordPos = (s.emitted word).wordPos
        ∧ (∃ placed, u.cueOut = (s.emitted word).cueOut ++ placed)
        ∧ t.reports = (offerAndDepart n ((arbitrate s word).endsReport s) es u).reports
        ∧ t.wordPos = (offerAndDepart n ((arbitrate s word).endsReport s) es u).wordPos ∧ t.cueOut = u.cueOut := by
  refine ⟨⟨_, rfl⟩, ?_⟩
  simp only [frameWork]
  refine ⟨_, _, _, ?_, ?_, ?_, rfl, rfl, ?_⟩
  · rw [orderUnitWork_frame, admitAll_frame]
    simp only [setPhases]
    rw [returnsWork_follows]
    cases arbitrate s word <;> rfl
  · rw [orderUnitWork_frame, admitAll_frame]
    simp only [setPhases]
    rw [returnsWork_follows]
    rfl
  · rw [orderUnitWork_frame]
    refine (admitAll_cueOut _ _ _ _).imp fun placed h => h.trans ?_
    simp only [setPhases]
    rw [returnsWork_follows]
    rfl
  · rw [offerAndDepart_frame]

/-- What the frame work of an arrival sends and leaves, by the arbiter's choice as the statements say it. -/
theorem frameWork_leaves {s : State} (hb : s.reportsBounded) (programme : SampleSet) (word : Option ControlWord) :
    let t := (frameWork programme word s).1
    let out := s.slotOutcome s.frameCount word
    (∃ mix, t.lineOut = composeFrame mix out.1) ∧ (∃ more, t.reports = out.2.2.1 ++ more) ∧ t.wordPos = out.2.2.2
      ∧ ∃ placed, t.cueOut = out.2.1 ++ placed := by
  intro t out
  obtain ⟨sent, n, es, u, reports, wordPos, ⟨placed, list⟩, left, position, cues⟩ := frameWork_offers programme word s
  obtain ⟨choice, ⟨stays, waiting, emit⟩ | ⟨departs, some, gone, start, emit⟩⟩ := arbitrate_agrees hb word
  · have emitted : s.emitted word = _ := emit s.dropDue rfl rfl
    rw [stays, offerAndDepart_of_stays] at left position
    obtain ⟨more, added, -⟩ := u.offerEvents_reports es
    refine ⟨choice ▸ sent, ⟨more, ?_⟩, ?_, placed, ?_⟩
    · exact left.trans (added.trans (by rw [reports, waiting]))
    · exact position.trans ((State.offerEvents_wordPos ..).trans (wordPos.trans (by rw [emitted])))
    · exact cues.trans (list.trans (by rw [emitted]))
  · have emitted : s.emitted word = _ := emit s.dropDue rfl rfl
    obtain ⟨r, rest, head⟩ := List.exists_cons_of_ne_nil some
    rw [departs] at left position
    obtain ⟨⟨more, added⟩, zero⟩ := offerAndDepart_departs n es (reports.trans head)
    refine ⟨choice ▸ sent, ⟨more, ?_⟩, ?_, placed, ?_⟩
    · exact left.trans (added.trans (by rw [gone, head, List.tail_cons]))
    · exact position.trans (zero.trans start.symm)
    · exact cues.trans (list.trans (by rw [emitted]))

/-- With no order in assembly no order is completed (R143, R146). -/
theorem frameWork_completes_nothing {s : State} (h : s.assembly = none) (programme : SampleSet) (word : Option ControlWord) :
    (frameWork programme word s).2 = none := by
  have nothing : ∀ (w : Option ControlWord) (u : State), u.assembly = none → (orderUnitWork w u).complete = none := by
    intro w u hu
    have checked : checkDeadline u = (u, []) := by rw [checkDeadline, hu]
    simp only [orderUnitWork, checked]
    cases w with
    | none => rfl
    | some w =>
      simp only [handleOrderWord]
      split
      · simp only [orderHead]
        split <;> rfl
      · rw [orderBody, hu]
      · rw [orderEnd, hu]
      · rfl
  simp only [frameWork]
  refine nothing _ _ ?_
  rw [admitAll_frame]
  simp only [setPhases]
  rw [returnsWork_follows]
  cases arbitrate s word <;> exact h

/-- A concealed frame brings no word and completes no order (R135, R143). -/
theorem frameWork_without_word (programme : SampleSet) (s : State) : (frameWork programme none s).2 = none := rfl

/-! The arrival -/

/-- The station that an arrival of a frame leaves when it keeps the lock, with the control word taken from the frame. -/
structure State.Kept (s t : State) (line : LineFrame) (word : Option ControlWord) : Prop where
  receiver : t.lock = s.lock ∧ t.confirm = s.confirm ∧ t.resetLine = s.resetLine ∧ t.station = s.station
  count : t.frameCount = s.frameCount + 1 ∧ t.nextBit = s.nextBit + 448
  badRun : t.badRun = if (frameOfLine line).good then 0 else s.badRun + 1
  lastGood : t.lastGood = if (frameOfLine line).good then (frameOfLine line).samples else s.lastGood
  sent : ∃ mix, t.lineOut = composeFrame mix (s.slotOutcome (s.frameCount + 1) word).1
  reports : ∃ more, t.reports = (s.slotOutcome (s.frameCount + 1) word).2.2.1 ++ more
  wordPos : t.wordPos = (s.slotOutcome (s.frameCount + 1) word).2.2.2
  cueOut : s.assembly = none → ∃ placed, t.cueOut = (s.slotOutcome (s.frameCount + 1) word).2.1 ++ placed

theorem State.Kept.sent_good {s t : State} {line : LineFrame} {word : Option ControlWord} (kept : s.Kept t line word) :
    (frameOfLine t.lineOut).good = true := by
  obtain ⟨mix, sent⟩ := kept.sent
  rw [sent]
  exact composeFrame_good mix _

theorem State.Kept.sent_control {s t : State} {line : LineFrame} {word : Option ControlWord} (kept : s.Kept t line word) :
    (frameOfLine t.lineOut).control = (s.slotOutcome (s.frameCount + 1) word).1 := by
  obtain ⟨mix, sent⟩ := kept.sent
  rw [sent]
  exact composeFrame_control mix _

/-- The frame work after the receipt of a frame, and the taking of what it completes, leave such a station. -/
theorem State.kept_takeComplete {s : State} (hb : s.reportsBounded) {line : LineFrame} {samples : SampleSet} {run : Nat}
    {word : Option ControlWord} (hrun : run = if (frameOfLine line).good then 0 else s.badRun + 1)
    (hsamples : samples = if (frameOfLine line).good then (frameOfLine line).samples else s.lastGood) :
    s.Kept (takeComplete (frameWork samples word (s.received samples run)).2
      (frameWork samples word (s.received samples run)).1) line word := by
  obtain ⟨⟨mix, sent⟩, ⟨more, reports⟩, wordPos, placed, cueOut⟩ :=
    frameWork_leaves (s := s.received samples run) hb samples word
  have worked := frameWork_frame samples word (s.received samples run)
  have nothing := frameWork_completes_nothing (s := s.received samples run) (programme := samples) (word := word)
  generalize frameWork samples word (s.received samples run) = work at *
  obtain ⟨frame, ⟨added, behind⟩, -⟩ := afterOrder_takeComplete work.2 work.1
  generalize taken : takeComplete work.2 work.1 = t at *
  have received : (t.lock = s.lock ∧ t.confirm = s.confirm ∧ t.resetLine = s.resetLine ∧ t.station = s.station)
      ∧ (t.frameCount = s.frameCount + 1 ∧ t.nextBit = s.nextBit + 448) ∧ t.badRun = run ∧ t.lastGood = samples := by
    rw [frame, worked]
    exact ⟨⟨rfl, rfl, rfl, rfl⟩, ⟨rfl, rfl⟩, rfl, rfl⟩
  have sameLine : t.lineOut = work.1.lineOut ∧ t.wordPos = work.1.wordPos := by
    rw [frame]
    exact ⟨rfl, rfl⟩
  obtain ⟨receiver, count, badRun, lastGood⟩ := received
  refine ⟨receiver, count, badRun.trans hrun, lastGood.trans hsamples, ⟨mix, sameLine.1.trans sent⟩, ⟨more ++ added, ?_⟩,
    sameLine.2.trans wordPos, fun unassembled => ⟨placed, Eq.trans ?_ cueOut⟩⟩
  · exact behind.trans ((congrArg (· ++ added) reports).trans (List.append_assoc ..))
  · rw [← taken, nothing unassembled]
    rfl

/-- The control word of an arrival: that of a good frame, none when the frame is concealed (R135). -/
def takenWord (line : LineFrame) : Option ControlWord :=
  if (frameOfLine line).good then some (frameOfLine line).control else none

/-- Every arrival that keeps the lock (R129, R130). -/
theorem exec_frameArrival_kept {s : State} (hl : s.lock = .locked) (hb : s.reportsBounded) {line : LineFrame}
    (h : (frameOfLine line).good ∨ s.badRun < 2) :
    ∃ t, exec (.frameArrival line) s = .next t ∧ s.Kept t line (takenWord line) := by
  refine ⟨_, exec_frameArrival line hl, ?_⟩
  rcases arriveLocked_cases line s with ⟨good, arrived⟩ | ⟨bad, -, arrived⟩ | ⟨bad, many, -⟩
  · rw [arrived, arriveGood_eq, takenWord, if_pos good]
    exact State.kept_takeComplete hb (if_pos good).symm (if_pos good).symm
  · have kept := State.kept_takeComplete (s := s) hb (line := line) (word := none) (if_neg bad).symm (if_neg bad).symm
    rw [arrived, takenWord, if_neg bad]
    rwa [frameWork_without_word] at kept
  · exact absurd (h.resolve_left bad) (Nat.not_lt.mpr many)

theorem val_cueOffset (w : ControlWord) : (cueOffset (wordPayload w)).val = w.toNat % 4096 := by
  show ((w.extractLsb' 0 24).extractLsb' 0 12).toNat = _
  rw [BitVec.extractLsb'_toNat, BitVec.extractLsb'_toNat, Nat.shiftRight_eq_div_pow, Nat.shiftRight_eq_div_pow]
  omega

/-- Settles O41: the classification by the numbers of a word's fields, and what every arrival that keeps the lock leaves
(`State.Kept`), its frame as the Line Transmitter composes it. -/
theorem lockedArrivalCountsAndArbitrates : Obligations.LockedArrivalCountsAndArbitrates := by
  refine ⟨fun station w => ⟨passesOn_eq_travelsOn station w, handedOrderWord_eq station w, ?_⟩, ?_⟩
  · rw [actedCue_eq]
    split
    · exact congrArg (· :: []) (Prod.ext (val_cueNumber w) (val_cueOffset w))
    · rfl
  · intro s line hl hb f keeps
    obtain ⟨t, arrived, kept⟩ := exec_frameArrival_kept hl hb keeps
    obtain ⟨lock, confirm, resetLine, station⟩ := kept.receiver
    exact ⟨t, arrived, lock.trans hl, kept.count.1, kept.count.2, kept.badRun, kept.lastGood, kept.sent_good,
      kept.sent_control, station, confirm, resetLine⟩

/-! Words of the station's own in a free slot (R120, R191, log entry 19) -/

/-- The frame of the two departure rows, as the line would bring it (log entry 19). -/
def State.departureLine (s : State) : LineFrame :=
  composeFrame (Vector.ofFn fun j => Config.departureSample s.choices j) idleWord

theorem State.departureLine_good (s : State) : (frameOfLine s.departureLine).good = true := composeFrame_good _ idleWord

theorem State.departureLine_control (s : State) : (frameOfLine s.departureLine).control = idleWord :=
  composeFrame_control _ idleWord

theorem State.exec_departureLine {s : State} (hl : s.lock = .locked) :
    exec (.frameArrival s.departureLine) s = .next (arriveIdle s) := by
  have read : frameOfLine s.departureLine = ⟨markerValue, _, idleWord, _⟩ := frameOfLine_composeFrame _ idleWord
  rw [exec_frameArrival _ hl, arriveLocked_good s s.departureLine_good, read]
  rfl

/-- A word of kind IDLE leaves the slot free (R139). -/
theorem travelsOn_idleWord (station : BitVec 5) : travelsOn station idleWord = false := by
  rw [← passesOn_eq_travelsOn]
  rfl

/-! Who gets the free slot (R193) -/

theorem freeSlotChoice_of_entry {s : State} (hc : s.cueOut ≠ []) : ∃ e, freeSlotChoice s = .cueOut e := by
  obtain ⟨e, rest, head⟩ := List.exists_cons_of_ne_nil hc
  exact ⟨e, by simp only [freeSlotChoice, head]⟩

theorem freeSlotChoice_of_report {s : State} (hb : s.reportsBounded) (hc : s.cueOut = []) (hr : s.reports ≠ []) :
    ∃ w, freeSlotChoice s = .report w := by
  obtain ⟨r, rest, head⟩ := List.exists_cons_of_ne_nil hr
  obtain ⟨-, -, -, position⟩ := hb
  rw [head] at position
  refine ⟨r.wordAt s.station s.wordPos, ?_⟩
  simp only [freeSlotChoice, hc, State.offeredReportWord, head, Report.words_getElem? position]

theorem freeSlotChoice_of_none {s : State} (hc : s.cueOut = []) (hr : s.reports = []) : freeSlotChoice s = .idle := by
  simp only [freeSlotChoice, hc, State.offeredReportWord, hr]

/-- CUE_OUT_SENT is the arrival of the departure line when the slot is a Cue Out entry's, and nothing otherwise. -/
theorem exec_cueOutSent {s : State} (hl : s.lock = .locked) :
    ((∃ e, freeSlotChoice s = .cueOut e) → exec .cueOutSent s = exec (.frameArrival s.departureLine) s)
      ∧ ((∀ e, freeSlotChoice s ≠ .cueOut e) → exec .cueOutSent s = .next s) := by
  rw [s.exec_departureLine hl]
  rcases execCueOutSent_cases s with ⟨e, slot, sent⟩ | ⟨other, sent⟩
  · rw [freeSlotAt_of_locked hl, Option.some.injEq] at slot
    exact ⟨fun _ => sent, fun others => absurd slot (others e)⟩
  · rw [freeSlotAt_of_locked hl] at other
    exact ⟨fun ⟨e, slot⟩ => absurd (congrArg some slot) (other e), fun _ => sent⟩

/-- REPORT_WORD_SENT is the arrival of the departure line when the slot is a report word's, and nothing otherwise. -/
theorem exec_reportWordSent {s : State} (hl : s.lock = .locked) :
    ((∃ w, freeSlotChoice s = .report w) → exec .reportWordSent s = exec (.frameArrival s.departureLine) s)
      ∧ ((∀ w, freeSlotChoice s ≠ .report w) → exec .reportWordSent s = .next s) := by
  rw [s.exec_departureLine hl]
  rcases execReportWordSent_cases s with ⟨w, slot, sent⟩ | ⟨other, sent⟩
  · rw [freeSlotAt_of_locked hl, Option.some.injEq] at slot
    exact ⟨fun _ => sent, fun others => absurd slot (others w)⟩
  · rw [freeSlotAt_of_locked hl] at other
    exact ⟨fun ⟨w, slot⟩ => absurd (congrArg some slot) (other w), fun _ => sent⟩

/-- With no Cue Out entry the slot is not a Cue Out entry's. -/
theorem freeSlotChoice_ne_cueOut {s : State} (hb : s.reportsBounded) (hc : s.cueOut = []) (e : CueOutEntry) :
    freeSlotChoice s ≠ .cueOut e := by
  by_cases hr : s.reports = []
  · rw [freeSlotChoice_of_none hc hr]
    exact nofun
  · obtain ⟨w, slot⟩ := freeSlotChoice_of_report hb hc hr
    rw [slot]
    exact nofun

/-- A waiting Cue Out entry goes before every report word, and without a report there is no word. -/
theorem freeSlotChoice_ne_report {s : State} (h : s.cueOut ≠ [] ∨ s.reports = []) (w : ControlWord) :
    freeSlotChoice s ≠ .report w := by
  by_cases hc : s.cueOut = []
  · rw [freeSlotChoice_of_none hc (h.resolve_left (absurd hc))]
    exact nofun
  · obtain ⟨e, slot⟩ := freeSlotChoice_of_entry hc
    rw [slot]
    exact nofun

/-! The arrivals whose control slot is free -/

/-- An arrival that keeps the lock and whose control slot is free: its word does not travel on, or the frame is concealed. -/
def State.FreeArrival (s : State) (line : LineFrame) : Prop :=
  (frameOfLine line).good ∧ travelsOn s.station (frameOfLine line).control = false
    ∨ ¬(frameOfLine line).good ∧ s.badRun < 2

theorem State.departureLine_free (s : State) : s.FreeArrival s.departureLine :=
  .inl ⟨s.departureLine_good, by rw [s.departureLine_control, travelsOn_idleWord]⟩

/-- A word that does not travel on leaves the slot as free as a concealed frame does. -/
theorem State.slotOutcome_of_free {s : State} {line : LineFrame} (free : s.FreeArrival line) (now : FrameCount) :
    s.slotOutcome now (takenWord line) = s.slotOutcome now none := by
  rcases free with ⟨good, stays⟩ | ⟨bad, -⟩
  · rw [takenWord, if_pos good]
    simp only [State.slotOutcome, stays, Bool.false_eq_true, if_false]
  · rw [takenWord, if_neg bad]

/-- An arrival with a free slot goes to a kept station by the outcome of the free slot. -/
theorem exec_freeArrival {s : State} (hl : s.lock = .locked) (hb : s.reportsBounded) {line : LineFrame}
    (free : s.FreeArrival line) :
    ∃ t, exec (.frameArrival line) s = .next t ∧ s.Kept t line (takenWord line)
      ∧ s.slotOutcome (s.frameCount + 1) (takenWord line) = s.slotOutcome (s.frameCount + 1) none := by
  obtain ⟨t, arrived, kept⟩ := exec_frameArrival_kept hl hb (line := line) (free.imp And.left And.right)
  exact ⟨t, arrived, kept, s.slotOutcome_of_free free _⟩

/-- The oldest Cue Out entry leaves in the free slot, with station field 0 and the frames to go (R120). -/
theorem freeArrival_sends_cueOut {s : State} (hl : s.lock = .locked) (hb : s.reportsBounded) {line : LineFrame}
    (free : s.FreeArrival line) {e : CueOutEntry} {rest : List CueOutEntry} (head : s.cueOut = e :: rest) :
    let d := (e.due - (s.frameCount + 1)).toNat
    ∃ t, exec (.frameArrival line) s = .next t ∧ (frameOfLine t.lineOut).good
      ∧ (frameOfLine t.lineOut).control
        = controlWord .cue 0 (BitVec.ofNat 24 (4096 * e.cue.val + if 1 ≤ d ∧ d ≤ 4095 then d else 0))
      ∧ t.wordPos = s.wordPos ∧ t.frameCount = s.frameCount + 1 ∧ (∃ more, t.reports = s.reports ++ more)
      ∧ (s.assembly = none → ∃ placed, t.cueOut = rest ++ placed) := by
  intro d
  obtain ⟨t, arrived, kept, outcome⟩ := exec_freeArrival hl hb free
  have leaves : s.slotOutcome (s.frameCount + 1) (takenWord line)
      = (controlWord .cue 0 (BitVec.ofNat 24 (4096 * e.cue.val + if 1 ≤ d ∧ d ≤ 4095 then d else 0)), rest, s.reports,
        s.wordPos) := by
    rw [outcome, State.slotOutcome, head]
  have control := kept.sent_control
  have reports := kept.reports
  have wordPos := kept.wordPos
  have cueOut := kept.cueOut
  rw [leaves] at control reports wordPos cueOut
  exact ⟨t, arrived, kept.sent_good, control, wordPos, kept.count.1, reports, cueOut⟩

/-- When no entry waits, the word of the head report at the word position leaves in the free slot, and the report with its
END word (R191). -/
theorem freeArrival_sends_report {s : State} (hl : s.lock = .locked) (hb : s.reportsBounded) {line : LineFrame}
    (free : s.FreeArrival line) (hc : s.cueOut = []) {r : Report} {rest : List Report} (head : s.reports = r :: rest) :
    ∃ t more, exec (.frameArrival line) s = .next t ∧ (frameOfLine t.lineOut).good
      ∧ (frameOfLine t.lineOut).control = r.wordAt s.station s.wordPos ∧ t.frameCount = s.frameCount + 1
      ∧ t.reports = (if s.wordPos = r.body.length + 1 then rest else r :: rest) ++ more
      ∧ t.wordPos = if s.wordPos = r.body.length + 1 then 0 else s.wordPos + 1 := by
  obtain ⟨t, arrived, kept, outcome⟩ := exec_freeArrival hl hb free
  have leaves : s.slotOutcome (s.frameCount + 1) (takenWord line)
      = (r.wordAt s.station s.wordPos, [], if s.wordPos = r.body.length + 1 then rest else r :: rest,
        if s.wordPos = r.body.length + 1 then 0 else s.wordPos + 1) := by
    rw [outcome, State.slotOutcome, hc, head]
    by_cases last : s.wordPos = r.body.length + 1
    · simp only [if_pos last]
    · simp only [if_neg last]
  have control := kept.sent_control
  obtain ⟨more, reports⟩ := kept.reports
  have wordPos := kept.wordPos
  rw [leaves] at control reports wordPos
  exact ⟨t, more, arrived, kept.sent_good, control, kept.count.1, reports, wordPos⟩

/-- Settles O57: each departure row is the arrival of the departure line or nothing, and an arrival with a free slot sends
what the lists before it hold. -/
theorem stationWordsLeaveInFreeSlots : Obligations.StationWordsLeaveInFreeSlots := by
  intro s hl hb
  have cueOutRow : s.cueOut ≠ [] → exec .cueOutSent s = exec (.frameArrival s.departureLine) s :=
    fun hc => (exec_cueOutSent hl).1 (freeSlotChoice_of_entry hc)
  have reportRow : s.cueOut = [] → s.reports ≠ [] → exec .reportWordSent s = exec (.frameArrival s.departureLine) s :=
    fun hc hr => (exec_reportWordSent hl).1 (freeSlotChoice_of_report hb hc hr)
  refine ⟨fun hc => (exec_cueOutSent hl).2 (freeSlotChoice_ne_cueOut hb hc),
    fun h => (exec_reportWordSent hl).2 (freeSlotChoice_ne_report h),
    ⟨s.departureLine, s.departureLine_good, s.departureLine_control, cueOutRow, reportRow⟩, ?_⟩
  rintro c (rfl | rfl | ⟨line, rfl, free⟩)
  · refine ⟨fun e rest head _ => ?_, fun r rest _ _ other => absurd rfl other⟩
    rw [cueOutRow (head ▸ List.cons_ne_nil e rest)]
    exact freeArrival_sends_cueOut hl hb s.departureLine_free head
  · refine ⟨fun e rest _ other => absurd rfl other, fun r rest hc head _ => ?_⟩
    rw [reportRow hc (head ▸ List.cons_ne_nil r rest)]
    exact freeArrival_sends_report hl hb s.departureLine_free hc head
  · exact ⟨fun e rest head _ => freeArrival_sends_cueOut hl hb free head,
      fun r rest hc head _ => freeArrival_sends_report hl hb free hc head⟩

end Sys2Proof.Machine
end

section
/-! The receiver in SEARCH and CONFIRM: the bits of the line as numbers, the search along a stream of bits, the frames of CONFIRM,
and the eight good frames that lock (R126 to R129, R133, R134, R142). -/

namespace Sys2Proof.Machine
-- As in the tests, one thread: the whole text is compiled under one limit of memory.
set_option Elab.async false

/-! The bits of the line (Table 7-3) -/

/-- The number that bits make, the first of them most significant. -/
def bitsValue (bits : List Bool) : Nat := bits.foldl (fun n b => 2 * n + b.toNat) 0

theorem bitsValue_concat (bits : List Bool) (bit : Bool) : bitsValue (bits ++ [bit]) = 2 * bitsValue bits + bit.toNat := by
  simp only [bitsValue, List.foldl_append, List.foldl_cons, List.foldl_nil]

/-- Bits behind others are the lower digits of the number. -/
theorem bitsValue_append (older bits : List Bool) :
    bitsValue (older ++ bits) = 2 ^ bits.length * bitsValue older + bitsValue bits := by
  induction bits using List.reverseRecOn with
  | nil => simp [bitsValue]
  | append_singleton bits bit ih =>
    rw [← List.append_assoc, bitsValue_concat, bitsValue_concat, ih, List.length_append, List.length_singleton, Nat.pow_succ]
    ring

/-- The bits behind the last `n` do not reach the remainder by `2 ^ n`. -/
theorem bitsValue_append_mod (older : List Bool) {bits : List Bool} {n : Nat} (h : n ≤ bits.length) :
    bitsValue (older ++ bits) % 2 ^ n = bitsValue bits % 2 ^ n := by
  obtain ⟨d, hd⟩ := Nat.exists_eq_add_of_le h
  rw [bitsValue_append, hd, Nat.pow_add, Nat.mul_assoc, Nat.mul_add_mod]

/-- The low bits of a number, the highest first, make its remainder. -/
theorem bitsValue_testBits (x n : Nat) :
    bitsValue (List.ofFn fun p : Fin n => x.testBit (n - 1 - p.val)) = x % 2 ^ n := by
  induction n with
  | zero => simp [bitsValue, Nat.mod_one]
  | succ n ih =>
    have tail : (fun p : Fin n => x.testBit (n + 1 - 1 - p.succ.val)) = fun p : Fin n => x.testBit (n - 1 - p.val) :=
      funext fun p => congrArg x.testBit (by simp only [Fin.val_succ]; omega)
    rw [List.ofFn_succ, tail, ← List.singleton_append, bitsValue_append, ih, List.length_ofFn, Nat.mod_pow_succ, Nat.add_comm]
    simp [bitsValue, Nat.toNat_testBit]

section
variable {w : Nat}

theorem ofNat_bitsValue_concat (bits : List Bool) (bit : Bool) :
    ((BitVec.ofNat w (bitsValue bits)).concat bit).setWidth w = BitVec.ofNat w (bitsValue (bits ++ [bit])) := by
  apply BitVec.eq_of_toNat_eq
  rw [BitVec.toNat_setWidth, BitVec.toNat_concat, BitVec.toNat_ofNat, BitVec.toNat_ofNat, bitsValue_concat, Nat.mul_comm _ 2]
  exact ((Nat.mod_modEq _ _).mul_left 2).add_right bit.toNat

theorem ofNat_bitsValue_drop {bits : List Bool} {k : Nat} (h : k + w ≤ bits.length) :
    BitVec.ofNat w (bitsValue (bits.drop k)) = BitVec.ofNat w (bitsValue bits) := by
  apply BitVec.eq_of_toNat_eq
  have last := bitsValue_append_mod (bits.take k) (bits := bits.drop k) (n := w) (by rw [List.length_drop]; omega)
  rw [List.take_append_drop] at last
  rw [BitVec.toNat_ofNat, BitVec.toNat_ofNat, last]

theorem ofNat_bitsValue_bits (x : BitVec w) :
    BitVec.ofNat w (bitsValue (List.ofFn fun p : Fin w => x.getLsbD (w - 1 - p.val))) = x := by
  apply BitVec.eq_of_toNat_eq
  rw [BitVec.toNat_ofNat]
  exact (congrArg (· % 2 ^ w) (bitsValue_testBits x.toNat w)).trans ((Nat.mod_mod _ _).trans (Nat.mod_eq_of_lt x.isLt))

end

/-- A bit shifted into the line is a bit read behind the others (R133). -/
theorem shiftIn_lineOfBits (bits : List Bool) (bit : Bool) : shiftIn (lineOfBits bits) bit = lineOfBits (bits ++ [bit]) :=
  ofNat_bitsValue_concat bits bit

/-- The line holds the last 448 bits that were read (R133). -/
theorem lineOfBits_drop {bits : List Bool} {k : Nat} (h : k + 448 ≤ bits.length) :
    lineOfBits (bits.drop k) = lineOfBits bits := ofNat_bitsValue_drop h

theorem lineOfBits_lineBits (line : LineFrame) : lineOfBits (lineBits line) = line := ofNat_bitsValue_bits line

theorem lineBits_length (line : LineFrame) : (lineBits line).length = 448 := List.length_ofFn

/-! The stream that a search examines (R126) -/

theorem State.heldBits_length {s : State} (h : s.waitingBits ≤ 447) : s.heldBits.length = s.waitingBits := by
  rw [State.heldBits, List.length_drop, lineBits_length]
  omega

/-- The line after more bits is what the bits before and the new ones make. -/
theorem State.lineAfter_eq (s : State) (bits : List Bool) : s.lineAfter bits = lineOfBits (lineBits s.lineOut ++ bits) :=
  lineOfBits_drop (by rw [List.length_append, lineBits_length]; omega)

theorem State.lineAfter_nil (s : State) : s.lineAfter [] = s.lineOut := by
  rw [State.lineAfter_eq, List.append_nil, lineOfBits_lineBits]

theorem State.shiftIn_lineAfter (s : State) (bits : List Bool) (bit : Bool) :
    shiftIn (s.lineAfter bits) bit = s.lineAfter (bits ++ [bit]) := by
  rw [State.lineAfter_eq, State.lineAfter_eq, shiftIn_lineOfBits, List.append_assoc]

/-- Once a frame of bits has come from the position examined on, the line holds the last frame of the stream. -/
theorem State.lineAfter_of_stream {s : State} {bits : List Bool} {p : Nat} (hw : s.waitingBits ≤ 447)
    (h : (s.heldBits ++ bits).length = p + 448) : s.lineAfter bits = lineOfBits ((s.heldBits ++ bits).drop p) := by
  have held : s.heldBits ++ bits = (lineBits s.lineOut ++ bits).drop (448 - s.waitingBits) := by
    rw [State.heldBits, List.drop_append_of_le_length (by rw [lineBits_length]; omega)]
  have length := h
  rw [List.length_append, State.heldBits_length hw] at length
  rw [lineOfBits_drop (by omega), State.lineAfter_eq, held, lineOfBits_drop]
  rw [List.length_append, lineBits_length]
  omega

/-- The last frame of a stream is made of all the bits behind its position. -/
theorem frameAt_last {stream : List Bool} {p : Nat} (h : stream.length = p + 448) :
    frameAt stream p = frameOfLine (lineOfBits (stream.drop p)) := by
  rw [frameAt, List.take_of_length_le]
  rw [List.length_drop]
  omega

/-- A frame that is whole is the same however the stream goes on. -/
theorem frameAt_append {stream : List Bool} {p : Nat} (h : p + 448 ≤ stream.length) (more : List Bool) :
    frameAt (stream ++ more) p = frameAt stream p := by
  rw [frameAt, frameAt, List.drop_append_of_le_length (by omega), List.take_append_of_le_length]
  rw [List.length_drop]
  omega

/-! SEARCH_CANDIDATE (R126, R132, R133, R140) -/

/-- A station that does not receive passes the bits. -/
theorem searchBits_of_deaf {s : State} (hl : s.lock = .search) (hr : s.receiving = false) (bits : List Bool) :
    bits.foldl searchBit s = { s with lineOut := s.lineAfter bits } := by
  induction bits using List.reverseRecOn with
  | nil => rw [State.lineAfter_nil]; rfl
  | append_singleton bits bit ih =>
    rw [List.foldl_append, ih, ← State.shiftIn_lineAfter]
    simp only [List.foldl_cons, List.foldl_nil]
    rcases searchBit_cases { s with lineOut := s.lineAfter bits } bit with
      ⟨other, -⟩ | ⟨-, -, passed⟩ | ⟨-, hears, -⟩ | ⟨-, hears, -⟩ | ⟨-, hears, -⟩
    · exact absurd hl other
    · exact passed
    all_goals exact absurd (hr.symm.trans hears) nofun

/-- The station after bits of a search in which no frame was good: it waits at the first position whose frame is not whole. -/
def State.searched (s : State) (bits : List Bool) : State :=
  { s with
    nextBit := s.nextBit + ((s.heldBits ++ bits).length - 447), waitingBits := min (s.heldBits ++ bits).length 447
    lineOut := s.lineAfter bits }

/-- The fields of such a station that a further bit reads. -/
theorem State.searched_fields (s : State) (bits : List Bool) : (s.searched bits).lock = s.lock
    ∧ (s.searched bits).receiving = s.receiving ∧ (s.searched bits).nextBit = s.nextBit + ((s.heldBits ++ bits).length - 447)
    ∧ (s.searched bits).waitingBits = min (s.heldBits ++ bits).length 447 ∧ (s.searched bits).lineOut = s.lineAfter bits := by
  simp only [State.searched, State.receiving, State.transparent, and_self]

theorem State.searched_nil {s : State} (hw : s.waitingBits ≤ 447) : s.searched [] = s := by
  unfold State.searched
  rw [State.lineAfter_nil, List.append_nil, State.heldBits_length hw, Nat.sub_eq_zero_of_le hw, Nat.min_eq_left hw]
  rfl

theorem State.searched_concat (s : State) (bits : List Bool) (bit : Bool) : s.searched (bits ++ [bit]) =
    { s.searched bits with
      nextBit := s.nextBit + ((s.heldBits ++ bits).length + 1 - 447)
      waitingBits := min ((s.heldBits ++ bits).length + 1) 447, lineOut := shiftIn (s.searched bits).lineOut bit } := by
  simp only [State.searched, State.shiftIn_lineAfter, ← List.append_assoc, List.length_append, List.length_singleton]

/-- The bit that fills a frame: the line then holds the last frame of the stream. -/
theorem State.frame_of_shiftIn {s : State} {bits : List Bool} {bit : Bool} {p : Nat} (hw : s.waitingBits ≤ 447)
    (h : (s.heldBits ++ (bits ++ [bit])).length = p + 448) :
    frameOfLine (shiftIn (s.searched bits).lineOut bit) = frameAt (s.heldBits ++ (bits ++ [bit])) p := by
  rw [frameAt_last h, ← State.lineAfter_of_stream hw h, ← State.shiftIn_lineAfter]
  rfl

/-- While no frame of the stream is good, the search moves on bit by bit. -/
theorem searchBits_none_good {s : State} (hl : s.lock = .search) (hr : s.receiving = true) (hw : s.waitingBits ≤ 447)
    (bits : List Bool) (h : ∀ n, n + 448 ≤ (s.heldBits ++ bits).length → ¬(frameAt (s.heldBits ++ bits) n).good) :
    bits.foldl searchBit s = s.searched bits := by
  induction bits using List.reverseRecOn with
  | nil => exact (State.searched_nil hw).symm
  | append_singleton bits bit ih =>
    have longer : (s.heldBits ++ (bits ++ [bit])).length = (s.heldBits ++ bits).length + 1 := by
      rw [← List.append_assoc, List.length_append, List.length_singleton]
    have before : ∀ n, n + 448 ≤ (s.heldBits ++ bits).length → ¬(frameAt (s.heldBits ++ bits) n).good := fun n hn => by
      rw [← frameAt_append hn [bit], List.append_assoc]
      exact h n (by omega)
    obtain ⟨lock, receiving, nextBit, waiting, -⟩ := s.searched_fields bits
    rw [List.foldl_append, ih before, State.searched_concat]
    simp only [List.foldl_cons, List.foldl_nil]
    rcases searchBit_cases (s.searched bits) bit with
      ⟨other, -⟩ | ⟨-, deaf, -⟩ | ⟨-, -, few, waits⟩ | ⟨-, -, many, good, -⟩ | ⟨-, -, many, -, moved⟩
    · exact absurd (lock.trans hl) other
    · exact absurd ((receiving.trans hr).symm.trans deaf) nofun
    · have place : s.nextBit + ((s.heldBits ++ bits).length + 1 - 447) = (s.searched bits).nextBit := by omega
      have held : min ((s.heldBits ++ bits).length + 1) 447 = (s.searched bits).waitingBits + 1 := by omega
      rw [waits, place, held]
    · rw [State.frame_of_shiftIn hw (p := (s.heldBits ++ bits).length - 447) (by omega)] at good
      exact absurd good (h _ (by omega))
    · have place : s.nextBit + ((s.heldBits ++ bits).length + 1 - 447) = (s.searched bits).nextBit + 1 := by omega
      have held : min ((s.heldBits ++ bits).length + 1) 447 = (s.searched bits).waitingBits := by omega
      rw [moved, place, held]

/-- The first good frame fixes the boundaries, and the bits behind it are not taken (R126, log entry 11). -/
theorem searchBits_first_good {s : State} (hl : s.lock = .search) (hr : s.receiving = true) (hw : s.waitingBits ≤ 447)
    {bits : List Bool} {p : Nat} (hlen : (s.heldBits ++ bits).length = p + 448)
    (noneGood : ∀ n < p, ¬(frameAt (s.heldBits ++ bits) n).good) (good : (frameAt (s.heldBits ++ bits) p).good)
    (more : List Bool) :
    (bits ++ more).foldl searchBit s = { s with
      lock := .confirm, confirm := 1, lastGood := (frameAt (s.heldBits ++ bits) p).samples, nextBit := s.nextBit + p + 448
      waitingBits := 0, lineOut := lineOfBits ((s.heldBits ++ bits).drop p) } := by
  rw [← State.lineAfter_of_stream hw hlen]
  rcases List.eq_nil_or_concat bits with rfl | ⟨bits, bit, rfl⟩
  · rw [List.append_nil, State.heldBits_length hw] at hlen
    omega
  rw [List.concat_eq_append] at *
  have before : (s.heldBits ++ bits).length + 1 = p + 448 := by
    rw [← hlen, ← List.append_assoc, List.length_append (bs := [bit]), List.length_singleton]
  have noneBefore : ∀ n, n + 448 ≤ (s.heldBits ++ bits).length → ¬(frameAt (s.heldBits ++ bits) n).good := fun n hn => by
    rw [← frameAt_append hn [bit], List.append_assoc]
    exact noneGood n (by omega)
  obtain ⟨lock, receiving, nextBit, waiting, -⟩ := s.searched_fields bits
  rw [List.foldl_append, List.foldl_append, searchBits_none_good hl hr hw bits noneBefore]
  simp only [List.foldl_cons, List.foldl_nil]
  have frame := State.frame_of_shiftIn hw hlen
  rcases searchBit_cases (s.searched bits) bit with
    ⟨other, -⟩ | ⟨-, deaf, -⟩ | ⟨-, -, few, -⟩ | ⟨-, -, -, -, found⟩ | ⟨-, -, -, bad, -⟩
  · exact absurd (lock.trans hl) other
  · exact absurd ((receiving.trans hr).symm.trans deaf) nofun
  · omega
  · have place : (s.searched bits).nextBit = s.nextBit + p := by omega
    rw [found, searchBits_of_lock_ne more (by simp), frame, place, ← State.shiftIn_lineAfter]
    simp only [State.searched]
  · rw [frame, good] at bad
    cases bad

/-! CONFIRM_FRAME (R127, R128, log entry 10) -/

section
variable {s : State} (line : LineFrame)

theorem exec_confirmFrame_of_locked (hl : s.lock = .locked) : exec (.confirmFrame line) s = .next s := by
  simp only [exec, execConfirmFrame, hl, if_true]

theorem exec_confirmFrame_of_search (hl : s.lock = .search) :
    exec (.confirmFrame line) s = .next { s with lineOut := line } := by
  simp [exec, execConfirmFrame, hl]

theorem exec_confirmFrame_of_good (hl : s.lock = .confirm) (good : (frameOfLine line).good) (hc : s.confirm ≠ 7) :
    exec (.confirmFrame line) s = .next { s with
      confirm := s.confirm + 1, lastGood := (frameOfLine line).samples, nextBit := s.nextBit + 448, lineOut := line } := by
  simp [exec, execConfirmFrame, hl, good, hc]

theorem exec_confirmFrame_of_eighth (hl : s.lock = .confirm) (good : (frameOfLine line).good) (hc : s.confirm = 7) :
    exec (.confirmFrame line) s = .next (({ s with
      lock := .locked, confirm := 0, badRun := 0, frameCount := 0, lastGood := (frameOfLine line).samples
      nextBit := s.nextBit + 448, lineOut := line } : State).offerEvent .linkLocked) := by
  simp [exec, execConfirmFrame, hl, good, hc]

theorem exec_confirmFrame_of_bad (hl : s.lock = .confirm) (bad : ¬(frameOfLine line).good) :
    exec (.confirmFrame line) s = .next { s with
      lock := .search, confirm := 0, nextBit := s.nextBit + 1, waitingBits := 447, lineOut := line } := by
  simp [exec, execConfirmFrame, hl, bad]

end

theorem exec_searchCandidate_eq (skipped candidate : List Bool) (s : State) :
    exec (.searchCandidate skipped candidate) s = .next ((skipped ++ candidate).foldl searchBit s) := rfl

/-- Settles O39: the search by the bits it has taken (`searchBits_none_good`, `searchBits_first_good`), and CONFIRM_FRAME by the
lock state and the frame test. -/
theorem searchAndConfirmFrames : Obligations.SearchAndConfirmFrames := by
  refine ⟨fun s skipped candidate hl hw => ⟨fun hr noneGood => ?_, fun p more hr hlen noneGood good => ?_, fun deaf => ?_⟩,
    fun s line skipped candidate => ⟨fun hl => ?_, exec_confirmFrame_of_search line, exec_confirmFrame_of_locked line,
      exec_confirmFrame_of_good line, exec_confirmFrame_of_eighth line, exec_confirmFrame_of_bad line⟩⟩
  · rw [exec_searchCandidate_eq, searchBits_none_good hl hr hw _ noneGood]
    rfl
  · rw [exec_searchCandidate_eq, ← List.append_assoc, searchBits_first_good hl hr hw hlen noneGood good]
  · rw [exec_searchCandidate_eq, searchBits_of_deaf hl (Bool.eq_false_iff.mpr deaf)]
  · rw [exec_searchCandidate_eq, searchBits_of_lock_ne _ hl]

end Sys2Proof.Machine
end

section
/-! Eight good frames: a run of the machine from a search to the lock (R127 to R129, R142). -/

namespace Sys2Proof.Machine
-- As in the tests, one thread: the whole text is compiled under one limit of memory.
set_option Elab.async false

/-! Runs of a machine -/

theorem run_zero {M : Host.Core} (s : M.State) : M.run 0 s = .next s := rfl

theorem run_succ {M : Host.Core} {s t : M.State} (h : M.step s = .next t) (k : Nat) : M.run (k + 1) s = M.run k t := by
  simp only [Host.Core.run, h]

theorem run_add {M : Host.Core} {s t : M.State} {m : Nat} (h : M.run m s = .next t) (n : Nat) :
    M.run (m + n) s = M.run n t := by
  induction m generalizing s with
  | zero => cases h; rw [Nat.zero_add]
  | succ m ih =>
    cases stepped : M.step s with
    | next u =>
      rw [run_succ stepped] at h
      rw [Nat.succ_add, run_succ stepped, ih h]
    | fault r => simp only [Host.Core.run, stepped, reduceCtorEq] at h
    | refused r => simp only [Host.Core.run, stepped, reduceCtorEq] at h

/-- A run begins with the command at the front of the queue. -/
theorem core_run_succ {s t : State} {c : Instr} {rest : List Instr} (hp : s.pending = c :: rest)
    (hx : exec c { s with pending := rest } = .next t) (k : Nat) :
    Sys2Proof.core.run (k + 1) s = Sys2Proof.core.run k t := by
  refine run_succ (M := Sys2Proof.core) (show step s = .next t from ?_) k
  rw [step, hp]
  exact hx

/-! The frames of CONFIRM -/

/-- The station once good frames have been taken in CONFIRM, with the commands that then wait. -/
def State.confirmed (s : State) (lines : List LineFrame) (rest : List Instr) : State :=
  { s with
    confirm := s.confirm + lines.length, lastGood := (frameOfLine (lines.getLastD s.lineOut)).samples
    nextBit := s.nextBit + lines.length * 448, lineOut := lines.getLastD s.lineOut, pending := rest }

theorem State.confirmed_nil {s : State} (hg : s.lastGood = (frameOfLine s.lineOut).samples) :
    s.confirmed [] s.pending = s := by
  simp only [State.confirmed, List.length_nil, List.getLastD_nil, ← hg, Nat.zero_mul, Nat.add_zero]

theorem State.confirmed_singleton (s : State) (line : LineFrame) (rest : List Instr) : s.confirmed [line] rest = { s with
    confirm := s.confirm + 1, lastGood := (frameOfLine line).samples, nextBit := s.nextBit + 448, lineOut := line
    pending := rest } := by
  simp only [State.confirmed, List.length_singleton, List.getLastD_cons, List.getLastD_nil, Nat.one_mul]

theorem State.confirmed_cons (s : State) (line : LineFrame) (lines : List LineFrame) (waiting rest : List Instr) :
    (s.confirmed [line] waiting).confirmed lines rest = s.confirmed (line :: lines) rest := by
  have confirm : s.confirm + [line].length + lines.length = s.confirm + (line :: lines).length := by
    rw [List.length_singleton, List.length_cons]
    omega
  have place : s.nextBit + [line].length * 448 + lines.length * 448 = s.nextBit + (line :: lines).length * 448 := by
    rw [List.length_singleton, List.length_cons]
    omega
  simp only [State.confirmed, List.getLastD_cons, List.getLastD_nil, confirm, place]

/-- Good frames that do not reach the eighth leave the receiver in CONFIRM (R127, R128). -/
theorem core_run_confirmFrames {s : State} {lines : List LineFrame} {rest : List Instr} (hl : s.lock = .confirm)
    (hg : s.lastGood = (frameOfLine s.lineOut).samples) (good : ∀ line ∈ lines, (frameOfLine line).good)
    (hc : s.confirm + lines.length ≤ 7) (hp : s.pending = lines.map Instr.confirmFrame ++ rest) :
    Sys2Proof.core.run lines.length s = .next (s.confirmed lines rest) := by
  induction lines generalizing s with
  | nil =>
    rw [List.map_nil, List.nil_append] at hp
    rw [← hp, State.confirmed_nil hg, List.length_nil]
    exact run_zero (M := Sys2Proof.core) s
  | cons line lines ih =>
    rw [List.length_cons] at hc
    let waiting := lines.map Instr.confirmFrame ++ rest
    have taken : exec (.confirmFrame line) { s with pending := waiting } = .next (s.confirmed [line] waiting) := by
      rw [State.confirmed_singleton]
      exact exec_confirmFrame_of_good line hl (good line List.mem_cons_self) (show s.confirm ≠ 7 by omega)
    have counted : (s.confirmed [line] waiting).confirm + lines.length ≤ 7 := show s.confirm + 1 + _ ≤ 7 by omega
    rw [List.length_cons, core_run_succ hp taken, ← s.confirmed_cons line lines waiting]
    exact ih (s := s.confirmed [line] waiting) hl rfl (fun l h => good l (List.mem_cons_of_mem _ h)) counted rfl

/-! The lock -/

/-- The station that a search has left at its first good frame, with the commands that then wait (R126). -/
def State.candidateFound (s : State) (stream : List Bool) (p : Nat) (waiting : List Instr) : State :=
  { s with
    lock := .confirm, confirm := 1, lastGood := (frameAt stream p).samples, nextBit := s.nextBit + p + 448
    waitingBits := 0, lineOut := lineOfBits (stream.drop p), pending := waiting }

/-- The station that the eighth good frame has locked, before LINK LOCKED is offered (R128). -/
def State.lockedBy (s : State) (line : LineFrame) (waiting : List Instr) : State :=
  { s with
    lock := .locked, confirm := 0, badRun := 0, frameCount := 0, lastGood := (frameOfLine line).samples
    nextBit := s.nextBit + 448, lineOut := line, pending := waiting }

/-- Settles O40: the search finds its frame (`searchBits_first_good`), the next six are taken in CONFIRM
(`core_run_confirmFrames`), and the last one locks. -/
theorem eightGoodFramesLock : Obligations.EightGoodFramesLock := by
  intro s skipped candidate p more hl hr hw stream hlen noneGood good hmore seven start
  let waiting := more.map Instr.confirmFrame
  have bits : stream = s.heldBits ++ (skipped ++ candidate) := List.append_assoc ..
  have found : ∀ k, Sys2Proof.core.run (k + 1) start = Sys2Proof.core.run k (s.candidateFound stream p waiting) := by
    refine core_run_succ (s := start) rfl (congrArg Host.Outcome.next ?_)
    rw [bits] at hlen noneGood good ⊢
    have searched := searchBits_first_good (s := { s with pending := waiting }) hl hr hw hlen noneGood good []
    rwa [List.append_nil] at searched
  have samples : (s.candidateFound stream p waiting).lastGood
      = (frameOfLine (s.candidateFound stream p waiting).lineOut).samples :=
    congrArg Frame.samples (frameAt_last hlen)
  have confirms : ∀ lines rest, more = lines ++ rest → lines.length ≤ 6 →
      Sys2Proof.core.run lines.length (s.candidateFound stream p waiting)
        = .next ((s.candidateFound stream p waiting).confirmed lines (rest.map Instr.confirmFrame)) :=
    fun lines rest split few => core_run_confirmFrames rfl samples
      (fun line h => hmore line (split ▸ List.mem_append_left rest h)) (show 1 + lines.length ≤ 7 by omega)
      (show more.map Instr.confirmFrame = _ by rw [split, List.map_append])
  refine ⟨fun n hn => ?_, ?_⟩
  · cases n with
    | zero => exact ⟨start, rfl, by simp [start, State.lockIndicator, hl]⟩
    | succ n =>
      have confirmed := confirms (more.take n) (more.drop n) (List.take_append_drop n more).symm
        (by rw [List.length_take]; omega)
      rw [List.length_take, Nat.min_eq_left (by omega)] at confirmed
      exact ⟨_, (found n).trans confirmed, rfl⟩
  · rcases List.eq_nil_or_concat more with rfl | ⟨six, last, rfl⟩
    · cases seven
    rw [List.concat_eq_append] at *
    have length : six.length = 6 := by
      rw [List.length_append, List.length_singleton] at seven
      omega
    let before := (s.candidateFound stream p waiting).confirmed six [.confirmFrame last]
    have seventh : before.confirm = 7 := show 1 + six.length = 7 by rw [length]
    have ran : Sys2Proof.core.run 8 start = .next ((before.lockedBy last []).offerEvents [.linkLocked]) := by
      have confirmed := confirms six [last] rfl (Nat.le_of_eq length)
      rw [length] at confirmed
      rw [found 7, run_add confirmed 1]
      exact core_run_succ (s := before) rfl (exec_confirmFrame_of_eighth last rfl (hmore last (by simp)) seventh) 0
    refine ⟨_, ran, ?_⟩
    have offered := State.SameReports.offerEvents (s := s) (t := before.lockedBy last []) ⟨rfl, rfl, rfl⟩ [.linkLocked]
    have frame := State.offerEvents_frame (before.lockedBy last []) [.linkLocked]
    have place : (before.lockedBy last []).nextBit = s.nextBit + p + 8 * 448 := by
      show s.nextBit + p + 448 + six.length * 448 + 448 = _
      omega
    generalize (before.lockedBy last []).offerEvents [.linkLocked] = t at *
    have lock : t.lock = .locked := by rw [frame]; rfl
    have hears : t.receiving = true := by rw [frame]; exact hr
    refine ⟨lock, ?_, ?_, ?_, ?_, ?_, ?_, ?_, ?_, offered, ?_, ?_⟩
    · rw [frame]; rfl
    · rw [frame]; rfl
    · rw [frame]; rfl
    · rw [State.lockIndicator, lock, hears]; rfl
    · rw [frame, List.getLastD_concat]; rfl
    · rw [frame]; exact place
    · rw [frame]; rfl
    · rw [frame, List.getLastD_concat]; rfl
    · rw [frame]; rfl
    · rw [frame]; rfl

end Sys2Proof.Machine
end

section
/-! Every step keeps the receiver's counts in their ranges and an unlocked station quiet (R126, R127, R130, R132, R133, R140). -/

namespace Sys2Proof.Machine
-- As in the tests, one thread: the whole text is compiled under one limit of memory.
set_option Elab.async false

/-! Work that leaves the receiver -/

/-- `t` has the Line Receiver's lock state, counts and held bits of `s`, and receives when `s` does. -/
structure State.SameReceiver (s t : State) : Prop where
  lock : t.lock = s.lock
  confirm : t.confirm = s.confirm
  badRun : t.badRun = s.badRun
  waitingBits : t.waitingBits = s.waitingBits
  resetLine : t.resetLine = s.resetLine
  station : t.station = s.station

theorem State.SameReceiver.receiving {s t : State} (h : s.SameReceiver t) : t.receiving = s.receiving := by
  unfold State.receiving State.transparent
  rw [h.resetLine, h.station]

theorem State.SameReceiver.refl (s : State) : s.SameReceiver s := ⟨rfl, rfl, rfl, rfl, rfl, rfl⟩

theorem State.SameReceiver.trans {s t u : State} (h : s.SameReceiver t) (h' : t.SameReceiver u) : s.SameReceiver u :=
  ⟨h'.lock.trans h.lock, h'.confirm.trans h.confirm, h'.badRun.trans h.badRun, h'.waitingBits.trans h.waitingBits,
    h'.resetLine.trans h.resetLine, h'.station.trans h.station⟩

theorem State.SameReceiver.receiverSound {s t : State} (h : s.SameReceiver t) (hs : s.receiverSound) : t.receiverSound := by
  unfold State.receiverSound at *
  rwa [h.lock, h.confirm, h.badRun, h.waitingBits, h.receiving]

theorem State.WorkFollows.sameReceiver {s t : State} (h : s.WorkFollows t) : s.SameReceiver t := by
  unfold State.WorkFollows at h
  rw [h]
  exact ⟨rfl, rfl, rfl, rfl, rfl, rfl⟩

theorem State.CaptureFollows.sameReceiver {s t : State} (h : s.CaptureFollows t) : s.SameReceiver t := h.work.sameReceiver

theorem State.sameReceiver_offerEvents (s : State) (es : List Event) : s.SameReceiver (s.offerEvents es) := by
  rw [State.offerEvents_frame]
  exact ⟨rfl, rfl, rfl, rfl, rfl, rfl⟩

theorem State.SameReceiver.offerEvents {s t : State} (h : s.SameReceiver t) (es : List Event) :
    s.SameReceiver (t.offerEvents es) := h.trans (t.sameReceiver_offerEvents es)

theorem State.AfterOrder.sameReceiver {s t : State} (h : s.AfterOrder t) : s.SameReceiver t := by
  rw [h.frame]
  exact ⟨rfl, rfl, rfl, rfl, rfl, rfl⟩

theorem LaneWork.Follows.finishLanes_sameReceiver {s : State} {w : LaneWork} (h : (LaneWork.start s).Follows w)
    (es : List Event) : s.SameReceiver (Machine.finishLanes es w) := by
  simp only [Machine.finishLanes]
  refine State.SameReceiver.offerEvents (h.work.sameReceiver.trans ?_) _
  rw [admitAll_frame, State.freeDoomed_frame]
  exact ⟨rfl, rfl, rfl, rfl, rfl, rfl⟩

theorem State.sameReceiver_atNextCount {f : State → State} (hf : ∀ u : State, u.SameReceiver (f u)) (s : State) :
    s.SameReceiver (s.atNextCount f) := by
  obtain ⟨lock, confirm, badRun, waitingBits, resetLine, station⟩ := hf { s with frameCount := s.frameCount + 1 }
  exact ⟨lock, confirm, badRun, waitingBits, resetLine, station⟩

/-! The event rows -/

theorem sameReceiver_meetDeadline (s : State) : s.SameReceiver (meetDeadline s) := by
  unfold meetDeadline
  split
  · exact .refl s
  · split
    · exact State.SameReceiver.offerEvents (s := s) (t := { s with assembly := none }) ⟨rfl, rfl, rfl, rfl, rfl, rfl⟩ [_]
    · exact .refl s

theorem sameReceiver_releaseLane (i : Fin 8) (s : State) : s.SameReceiver (releaseLane i s) := by
  unfold releaseLane
  split
  · have released := LaneWork.follows_applyReleaseOrder i (LaneWork.start s)
    exact (released.trans (LaneWork.follows_endIfDue i _)).finishLanes_sameReceiver []
  · exact .refl s

theorem sameReceiver_abortLane (i : Fin 8) (s : State) : s.SameReceiver (abortLane i s) := by
  unfold abortLane
  split
  · exact (LaneWork.follows_applyAbortOrder i (LaneWork.start s)).finishLanes_sameReceiver []
  · exact .refl s

theorem sameReceiver_reachEnd (i : Fin 8) (s : State) : s.SameReceiver (reachEnd i s) := by
  unfold reachEnd
  dsimp only
  split
  · exact (LaneWork.follows_endRecord i (LaneWork.start s)).finishLanes_sameReceiver []
  · split
    · refine State.sameReceiver_atNextCount (fun arrived => ?_) s
      have advanced := LaneWork.follows_advanceLane i (LaneWork.start arrived)
      exact (advanced.trans (LaneWork.follows_endRecord i _)).finishLanes_sameReceiver []
    · exact .refl s

theorem sameReceiver_deliverDue (s : State) : s.SameReceiver (deliverDue s) := by
  refine State.sameReceiver_atNextCount (fun arrived => ?_) s
  have dropped : arrived.SameReceiver arrived.dropDue := ⟨rfl, rfl, rfl, rfl, rfl, rfl⟩
  have started := (State.captureFollows_eachUnit
    (fun u s' => s'.captureFollows_startIf (arrivalPlan arrived s.lastGood).delivered[u] u) arrived.dropDue).sameReceiver
  exact (dropped.trans started).trans ((triggersRow_follows _ (LaneWork.start _)).finishLanes_sameReceiver _)

theorem sameReceiver_completeUnit (u : Fin 2) (s : State) : s.SameReceiver (completeUnit u s) := by
  unfold completeUnit
  dsimp only
  split
  · exact (s.captureFollows_completeCapture u).sameReceiver.offerEvents _
  · split
    · exact (s.captureFollows_writeUnit s.lastGood u).sameReceiver.offerEvents _
    · exact .refl s

/-! The arrival -/

theorem sameReceiver_frameWork (programme : SampleSet) (word : Option ControlWord) (s : State) :
    s.SameReceiver (frameWork programme word s).1 := by
  rw [frameWork_frame]
  exact ⟨rfl, rfl, rfl, rfl, rfl, rfl⟩

theorem sameReceiver_arriveGood (samples : SampleSet) (word : ControlWord) (s : State) :
    (s.received samples 0).SameReceiver (arriveGood samples word s) :=
  (sameReceiver_frameWork samples (some word) _).trans (afterOrder_takeComplete _ _).sameReceiver

theorem State.receiverSound.received {s : State} (h : s.receiverSound) (hl : s.lock = .locked) (samples : SampleSet)
    {run : Nat} (hr : run ≤ 2) : (s.received samples run).receiverSound := by
  obtain ⟨confirming, elsewhere, -, -, held, receives⟩ := h
  exact ⟨confirming, elsewhere, fun other => absurd hl other, hr, held, receives⟩

/-- In SEARCH the counts are 0 and fewer bits than a frame wait. -/
theorem State.receiverSound_of_search {s : State} (hl : s.lock = .search) (hc : s.confirm = 0) (hb : s.badRun = 0)
    (hw : s.waitingBits ≤ 447) : s.receiverSound :=
  ⟨fun h => (by rw [hl] at h; cases h), fun _ => hc, fun _ => hb, hb ▸ Nat.zero_le 2, hw, fun h => absurd hl h⟩

/-! The link loss leaves the station quiet (R131, R133) -/

theorem State.workFollows_abandoned (s : State) (reason : EndReason) : s.WorkFollows (s.abandoned reason) := by
  refine (LaneWork.follows_abandonLanes reason s).work.trans ?_
  unfold State.WorkFollows State.abandoned
  rw [State.freeDoomed_frame]

theorem State.workFollows_stopped (s : State) : s.WorkFollows (eachUnit loseUnit (s.abandoned .linkLost)).1 :=
  (s.workFollows_abandoned .linkLost).trans (State.captureFollows_eachUnit (fun u s => s.captureFollows_loseUnit u) _).work

theorem sameReceiver_loseLink (s : State) : s.SameReceiver (loseLink s) := by
  have stopped := s.workFollows_stopped.sameReceiver
  rw [loseLink_eq]
  generalize (eachUnit loseUnit (s.abandoned .linkLost)).1 = e at *
  refine State.SameReceiver.trans (t := { e with triggers := [], cueOut := [], assembly := none }) ?_ ?_
  · obtain ⟨lock, confirm, badRun, waitingBits, resetLine, station⟩ := stopped
    exact ⟨lock, confirm, badRun, waitingBits, resetLine, station⟩
  · rw [State.offerEvents_frame]
    exact ⟨rfl, rfl, rfl, rfl, rfl, rfl⟩

/-- An abandoned lane is IDLE, and the others are as they were, whatever the Clip Directory holds (R43). -/
theorem abandonLane_lane (reason : EndReason) {w : LaneWork} {i : Fin 8} (h : (w.st.lane i).sound) (j : Fin 8) :
    (abandonLane reason w i).st.lane j = if j = i then Lane.idle else w.st.lane j := by
  cases hcopy : (w.st.lane i).copy with
  | none =>
    have idle : w.st.lane i = Lane.idle := by
      rcases h with idle | ⟨r, hr, -⟩
      · exact idle
      · rw [hr] at hcopy; cases hcopy
    rw [abandonLane_of_none hcopy]
    split
    · rename_i hj; rw [hj, idle]
    · rfl
  | some r =>
    rw [abandonLane_of_copy hcopy, LaneWork.setLane_lane]
    split
    · rfl
    · rename_i hj; exact (releaseClaims_lane i r w.st j).trans (if_neg hj)

theorem abandonRow_lane (reason : EndReason) (is : List (Fin 8)) {w : LaneWork} (h : ∀ i, (w.st.lane i).sound) (j : Fin 8) :
    (is.foldl (abandonLane reason) w).st.lane j = if j ∈ is then Lane.idle else w.st.lane j := by
  induction is generalizing w with
  | nil => rfl
  | cons i is ih =>
    have first := abandonLane_lane reason (h i)
    have sound : ∀ k, ((abandonLane reason w i).st.lane k).sound := fun k => by
      rw [first]
      split
      · exact Lane.idle_sound
      · exact h k
    rw [List.foldl_cons, ih sound, first]
    by_cases later : j ∈ is <;> simp [later]

theorem abandonLanes_lane (reason : EndReason) {s : State} (h : s.lanesSound) (i : Fin 8) :
    (abandonLanes reason s).st.lane i = Lane.idle :=
  (abandonRow_lane reason (List.finRange 8) (w := LaneWork.start s) h.1 i).trans (if_pos (List.mem_finRange i))

/-- A sound unit in the state IDLE has the values of R86. -/
theorem unitSound.idle {s : State} {u : Fin 2} (h : unitSound s u) (hi : (s.unit u).state = .idle) :
    s.unit u = CaptureUnit.idle := by
  rcases h with idle | ⟨c, -, -, -, -, -, ⟨armed, -⟩ | ⟨recording, -⟩⟩
  · exact idle
  · rw [hi] at armed; cases armed
  · rw [hi] at recording; cases recording

/-- The link loss leaves a unit IDLE and the other one alone (R98). -/
theorem loseUnit_unit {s : State} {u : Fin 2} (h : (s.unit u).state = .idle → s.unit u = CaptureUnit.idle) (v : Fin 2) :
    (loseUnit u s).1.unit v = if v = u then CaptureUnit.idle else s.unit v := by
  cases hst : (s.unit u).state with
  | idle =>
    simp only [loseUnit, hst]
    split
    · rename_i hv; rw [hv, h hst]
    · rfl
  | armed =>
    simp only [loseUnit, hst, cancelUnit, reduceCtorEq, if_false]
    rw [State.unit_setUnit, State.unit_congr (State.freeClip_units ..)]
  | recording =>
    simp only [loseUnit, hst, endCaptureShort]
    split
    · rw [State.unit_congr (State.freeClip_units ..), State.unit_setUnit]
    · rw [State.unit_congr (State.setClip_units ..), State.unit_setUnit]

theorem loseUnits_unit {s : State} (h : ∀ u, (s.unit u).state = .idle → s.unit u = CaptureUnit.idle) :
    ∀ u, (eachUnit loseUnit s).1.unit u = CaptureUnit.idle := by
  have first := loseUnit_unit (h 0)
  have second := loseUnit_unit (s := (loseUnit 0 s).1) (u := 1) (by rw [first, if_neg (by decide)]; exact h 1)
  simp only [eachUnit]
  exact Fin.forall_fin_two.mpr ⟨by rw [second, if_neg (by decide), first, if_pos rfl], by rw [second, if_pos rfl]⟩

/-- The six things that are quiet while the receiver is not LOCKED are all that `State.quiet` reads. -/
theorem State.quiet.congr {s t : State} (h : s.quiet) (hl : t.lanes = s.lanes) (hs : t.slots = s.slots)
    (ht : t.triggers = s.triggers) (hc : t.cueOut = s.cueOut) (hu : t.units = s.units) (ha : t.assembly = s.assembly) :
    t.quiet := by
  obtain ⟨lanes, slots, triggers, cueOut, units, assembly⟩ := h
  exact ⟨fun i => (State.lane_congr hl i).trans (lanes i), fun j => hs ▸ slots j, ht.trans triggers, hc.trans cueOut,
    fun u => (State.unit_congr hu u).trans (units u), ha.trans assembly⟩

theorem State.freeDoomed_lanes (s : State) : s.freeDoomed.1.lanes = s.lanes := by rw [State.freeDoomed_frame]

theorem State.freeDoomed_slots (s : State) : s.freeDoomed.1.slots = s.slots := by rw [State.freeDoomed_frame]

theorem State.freeDoomed_units (s : State) : s.freeDoomed.1.units = s.units := by rw [State.freeDoomed_frame]

theorem abandonLanes_units (reason : EndReason) (s : State) : (abandonLanes reason s).st.units = s.units := by
  have follows : (abandonLanes reason s).st = { s with lanes := _, slots := _, clips := _ } :=
    (LaneWork.follows_abandonLanes reason s).1
  rw [follows]

theorem State.CaptureFollows.lanes {s t : State} (h : s.CaptureFollows t) : t.lanes = s.lanes := by
  unfold State.CaptureFollows at h
  rw [h]

theorem State.CaptureFollows.slots {s t : State} (h : s.CaptureFollows t) : t.slots = s.slots := by
  unfold State.CaptureFollows at h
  rw [h]

theorem quiet_loseLink {s : State} (hl : s.lanesSound) (hc : s.captureSound) : (loseLink s).quiet := by
  have units : ∀ u, (s.abandoned .linkLost).unit u = s.unit u :=
    State.unit_congr ((State.freeDoomed_units _).trans (abandonLanes_units .linkLost s))
  have stopped := loseUnits_unit (s := s.abandoned .linkLost) fun u hi => by
    rw [units] at hi ⊢
    exact (hc.2.1 u).idle hi
  have frame := State.captureFollows_eachUnit (fun u s => s.captureFollows_loseUnit u) (s.abandoned .linkLost)
  have idle := abandonLanes_lane .linkLost hl
  have unowned := (lanesSound_abandonLanes .linkLost hl).slots_of_idle idle
  rw [loseLink_eq]
  generalize (eachUnit loseUnit (s.abandoned .linkLost)).1 = e at *
  have lanes : e.lanes = (abandonLanes .linkLost s).st.lanes := frame.lanes.trans (State.freeDoomed_lanes _)
  have slots : e.slots = (abandonLanes .linkLost s).st.slots := frame.slots.trans (State.freeDoomed_slots _)
  have flushed : ({ e with triggers := [], cueOut := [], assembly := none } : State).quiet :=
    ⟨fun i => (State.lane_congr lanes i).trans (idle i), fun j => (congrArg (·[j]) slots).trans (unowned j), rfl, rfl,
      stopped, rfl⟩
  rw [State.offerEvents_frame]
  exact flushed.congr rfl rfl rfl rfl rfl rfl

/-! What a step keeps -/

/-- `t` keeps what the statement says of the receiver and of the unlocked station `s`. -/
structure State.KeepsLink (s t : State) : Prop where
  counts : s.receiverSound → t.receiverSound
  quiet : s.lanesSound → s.captureSound → (s.lock ≠ .locked → s.quiet) → t.lock ≠ .locked → t.quiet

theorem State.KeepsLink.refl (s : State) : s.KeepsLink s := ⟨id, fun _ _ quiet => quiet⟩

/-- The work of a LOCKED station that stays LOCKED. -/
theorem State.SameReceiver.keepsLink {s t : State} (h : s.SameReceiver t) (hl : s.lock = .locked) : s.KeepsLink t :=
  ⟨h.receiverSound, fun _ _ _ other => absurd (h.lock.trans hl) other⟩

/-- A change of the receiver and the line alone leaves an unlocked station quiet. -/
theorem State.KeepsLink.of_unlocked {s t : State} (hl : s.lock ≠ .locked) (counts : s.receiverSound → t.receiverSound)
    (h : t = { s with
      lock := t.lock, confirm := t.confirm, badRun := t.badRun, frameCount := t.frameCount, lastGood := t.lastGood
      nextBit := t.nextBit, waitingBits := t.waitingBits, reports := t.reports, lost := t.lost, eventSeq := t.eventSeq
      lineOut := t.lineOut }) : s.KeepsLink t := by
  refine ⟨counts, fun _ _ quiet _ => (quiet hl).congr ?_ ?_ ?_ ?_ ?_ ?_⟩ <;> rw [h]

/-- A row that works while LOCKED alone. -/
theorem keepsLink_whenLocked {f : State → State} (hf : ∀ s : State, s.SameReceiver (f s)) (s : State) :
    s.KeepsLink (whenLocked f s) := by
  by_cases hl : s.lock = .locked
  · rw [whenLocked_of_locked f hl]
    exact (hf s).keepsLink hl
  · rw [whenLocked_of_not f hl]
    exact .refl s

theorem State.restart_fields (s : State) (station : BitVec 5) :
    s.restart station = { s.restart station with resetLine := false, lineOut := 0 } := by
  simp only [State.restart, State.powerOn]

/-- Every block at its power-on value: in SEARCH with nothing counted, and quiet (R132). -/
theorem State.keepsLink_restart (s : State) (station : BitVec 5) (line : Bool) (sent : LineFrame) :
    s.KeepsLink { s.restart station with resetLine := line, lineOut := sent } := by
  have lanes : ∀ i, (s.restart station).lane i = Lane.idle := fun i => by simp [State.restart, State.powerOn, State.lane]
  have slots : ∀ j : Fin 16, (s.restart station).slots[j] = none := fun j => by simp [State.restart, State.powerOn]
  have units : ∀ u, (s.restart station).unit u = CaptureUnit.idle := fun u => by
    simp [State.restart, State.powerOn, State.unit]
  exact ⟨fun _ => State.receiverSound_of_search rfl rfl rfl (Nat.zero_le _),
    fun _ _ _ _ => ⟨lanes, slots, rfl, rfl, units, rfl⟩⟩

/-- In SEARCH nothing is counted (R127, R130). -/
theorem State.receiverSound.counts_of_search {s : State} (h : s.receiverSound) (hl : s.lock = .search) :
    s.confirm = 0 ∧ s.badRun = 0 ∧ s.waitingBits ≤ 447 := by
  obtain ⟨-, elsewhere, unlocked, -, held, -⟩ := h
  exact ⟨elsewhere (by rw [hl]; nofun), unlocked (by rw [hl]; nofun), held⟩

theorem State.receiverSound.searchBit {s : State} (h : s.receiverSound) (bit : Bool) : (searchBit s bit).receiverSound := by
  rcases searchBit_cases s bit with
    ⟨-, taken⟩ | ⟨-, -, passed⟩ | ⟨hl, -, few, waits⟩ | ⟨hl, hears, -, -, found⟩ | ⟨-, -, -, -, moved⟩
  · rwa [taken]
  · rw [passed]
    exact h
  · obtain ⟨confirm, badRun, -⟩ := h.counts_of_search hl
    rw [waits]
    exact State.receiverSound_of_search hl confirm badRun (Nat.succ_le_of_lt few)
  · obtain ⟨-, badRun, -⟩ := h.counts_of_search hl
    rw [found]
    exact ⟨fun _ => ⟨Nat.le_refl 1, Nat.le_add_left 1 6⟩, fun other => absurd rfl other, fun _ => badRun,
      badRun ▸ Nat.zero_le 2, Nat.zero_le 447, fun _ => ⟨rfl, hears⟩⟩
  · rw [moved]
    exact h

theorem keepsLink_searchBits (bits : List Bool) (s : State) : s.KeepsLink (bits.foldl searchBit s) := by
  by_cases hl : s.lock = .search
  · refine .of_unlocked (by rw [hl]; nofun) (fun h => ?_) ?_
    · exact List.foldlRecOn bits _ (motive := State.receiverSound) h fun _ sound bit _ => sound.searchBit bit
    · have frame := searchBits_frame bits s
      rw [frame]
  · rw [searchBits_of_lock_ne bits hl]
    exact .refl s

/-- A frame in CONFIRM is counted, is the eighth, or sends the receiver back to SEARCH (R127, R128). -/
theorem keepsLink_confirmFrame {line : LineFrame} {s t : State} (hx : exec (.confirmFrame line) s = .next t) :
    s.KeepsLink t := by
  cases hl : s.lock with
  | locked =>
    rw [exec_confirmFrame_of_locked line hl] at hx
    cases hx
    exact .refl s
  | search =>
    rw [exec_confirmFrame_of_search line hl] at hx
    cases hx
    exact .of_unlocked (by rw [hl]; nofun) id rfl
  | confirm =>
    have unlocked : s.lock ≠ .locked := by rw [hl]; nofun
    by_cases good : (frameOfLine line).good
    · by_cases last : s.confirm = 7
      · rw [exec_confirmFrame_of_eighth line hl good last] at hx
        cases hx
        have offered := (s.lockedBy line s.pending).sameReceiver_offerEvents [.linkLocked]
        refine ⟨fun h => offered.receiverSound ?_, fun _ _ _ other => absurd offered.lock other⟩
        obtain ⟨-, -, -, -, held, receives⟩ := h
        exact ⟨nofun, fun _ => rfl, fun _ => rfl, Nat.zero_le 2, held, fun _ => receives (by rw [hl]; nofun)⟩
      · rw [exec_confirmFrame_of_good line hl good last] at hx
        cases hx
        refine .of_unlocked unlocked (fun h => ?_) rfl
        obtain ⟨confirming, -, noneBad, few, held, receives⟩ := h
        obtain ⟨first, most⟩ := confirming hl
        exact ⟨fun _ => ⟨Nat.le_add_left 1 _, Nat.lt_of_le_of_ne most last⟩, fun other => absurd hl other, noneBad, few, held,
          receives⟩
    · rw [exec_confirmFrame_of_bad line hl good] at hx
      cases hx
      refine .of_unlocked unlocked (fun h => ?_) rfl
      obtain ⟨-, -, noneBad, -⟩ := h
      exact State.receiverSound_of_search rfl rfl (noneBad unlocked) (Nat.le_refl 447)

theorem keepsLink_arriveGood {s : State} (hl : s.lock = .locked) (samples : SampleSet) (word : ControlWord) :
    s.KeepsLink (arriveGood samples word s) := by
  have work := sameReceiver_arriveGood samples word s
  exact ⟨fun h => work.receiverSound (h.received hl samples (Nat.zero_le 2)),
    fun _ _ _ other => absurd (work.lock.trans hl) other⟩

theorem keepsLink_arriveLocked {s : State} (hl : s.lock = .locked) (line : LineFrame) : s.KeepsLink (arriveLocked line s) := by
  rcases arriveLocked_cases line s with ⟨-, arrived⟩ | ⟨-, few, arrived⟩ | ⟨-, -, arrived⟩ <;> rw [arrived]
  · exact keepsLink_arriveGood hl _ _
  · have work := sameReceiver_frameWork s.lastGood none (s.received s.lastGood (s.badRun + 1))
    exact ⟨fun h => work.receiverSound (h.received hl _ few), fun _ _ _ other => absurd (work.lock.trans hl) other⟩
  · refine ⟨fun _ => (sameReceiver_loseLink _).receiverSound ?_, fun lanes capture _ _ => ?_⟩
    · exact State.receiverSound_of_search rfl rfl rfl (Nat.le_refl 447)
    · exact quiet_loseLink (s := s.leftLocked line) lanes capture

theorem keepsLink_exec_of_no_order {c : Instr} (hc : orderParts c = none) {s t : State} (hx : exec c s = .next t) :
    s.KeepsLink t := by
  have departs : ∀ choice, freeSlotAt s = some choice → s.KeepsLink (arriveIdle s) := fun choice hchoice => by
    by_cases hl : s.lock = .locked
    · exact keepsLink_arriveGood hl _ _
    · rw [freeSlotAt_of_lock_ne hl] at hchoice
      cases hchoice
  cases c with
  | powerOn straps =>
    cases hx
    rw [State.restart_fields]
    exact s.keepsLink_restart straps false 0
  | resetAssert => cases hx; exact s.keepsLink_restart s.station true s.lineOut
  | resetRelease straps =>
    simp only [exec, execResetRelease] at hx
    split at hx
    · cases hx; exact s.keepsLink_restart straps false s.lineOut
    · cases hx; exact .refl s
  | searchCandidate skipped candidate => cases hx; exact keepsLink_searchBits _ s
  | confirmFrame line => exact keepsLink_confirmFrame hx
  | frameArrival line =>
    simp only [exec, execFrameArrival] at hx
    split at hx
    · rename_i hl; cases hx; exact keepsLink_arriveLocked hl line
    · rename_i hl; cases hx; exact .of_unlocked hl id rfl
  | timeout => cases hx; exact keepsLink_whenLocked sameReceiver_meetDeadline s
  | applyRelease i => cases hx; exact keepsLink_whenLocked (sameReceiver_releaseLane i) s
  | applyAbort i => cases hx; exact keepsLink_whenLocked (sameReceiver_abortLane i) s
  | recordEnd i => cases hx; exact keepsLink_whenLocked (sameReceiver_reachEnd i) s
  | triggerFallsDue => cases hx; exact keepsLink_whenLocked sameReceiver_deliverDue s
  | captureComplete u => cases hx; exact keepsLink_whenLocked (sameReceiver_completeUnit u) s
  | cueOutSent =>
    rw [exec] at hx
    rcases execCueOutSent_cases s with ⟨e, slot, sent⟩ | ⟨-, sent⟩ <;> rw [sent] at hx <;> cases hx
    · exact departs _ slot
    · exact .refl s
  | reportWordSent =>
    rw [exec] at hx
    rcases execReportWordSent_cases s with ⟨w, slot, sent⟩ | ⟨-, sent⟩ <;> rw [sent] at hx <;> cases hx
    · exact departs _ slot
    · exact .refl s
  | _ => cases hc

theorem keepsLink_exec {c : Instr} {s t : State} (hx : exec c s = .next t) : s.KeepsLink t := by
  cases hc : orderParts c with
  | none => exact keepsLink_exec_of_no_order hc hx
  | some parts =>
    obtain ⟨code, seq, body⟩ := parts
    rw [exec_of_orderParts hc] at hx
    cases hx
    exact keepsLink_whenLocked (fun s => (afterOrder_takeOrder code seq body s).sameReceiver) s

/-- Settles O10: work of a LOCKED station leaves the receiver (`State.SameReceiver`), a link loss leaves the station quiet
(`quiet_loseLink`), and outside LOCKED a command reaches the receiver and the line alone. -/
theorem stepKeepsReceiverAndQuiet : Obligations.StepKeepsReceiverAndQuiet := by
  intro s t h
  unfold step at h
  split at h
  · cases h
    exact ⟨id, fun _ _ quiet => quiet⟩
  · rename_i c rest _
    obtain ⟨counts, quiet⟩ := keepsLink_exec (s := { s with pending := rest }) h
    exact ⟨counts, quiet⟩

end Sys2Proof.Machine
end

section
/-! The line commands and an unlocked station: every block at its power-on value, and what has no effect until the receiver is
LOCKED (R132, R133, R138, R140, R142). -/

namespace Sys2Proof.Machine
-- As in the tests, one thread: the whole text is compiled under one limit of memory.
set_option Elab.async false

/-- Settles O3: the three commands put every block at the values of `State.powerOn`, which are those of the statement. -/
theorem powerOnAndResetReturnPowerOnValues : Obligations.PowerOnAndResetReturnPowerOnValues := by
  intro s straps fresh
  have restarted : ∀ station line sent,
      { s.restart station with resetLine := line, lineOut := sent } = fresh station line sent := fun station line sent => by
    simp only [fresh, State.restart, State.powerOn]
  refine ⟨?_, congrArg Host.Outcome.next (restarted s.station true s.lineOut), ?_, fun _ _ _ => rfl⟩
  · rw [← restarted, ← State.restart_fields]
    rfl
  · rw [← restarted]
    show execResetRelease straps s = _
    unfold execResetRelease
    cases s.resetLine <;> rfl

/-- Outside LOCKED the two rows that send a word of the station's own find no slot (R193, log entry 19). -/
theorem exec_departures_of_unlocked {s : State} (hl : s.lock ≠ .locked) :
    exec .cueOutSent s = .next s ∧ exec .reportWordSent s = .next s := by
  have noSlot := freeSlotAt_of_lock_ne hl
  constructor
  · rcases execCueOutSent_cases s with ⟨e, slot, -⟩ | ⟨-, sent⟩
    · rw [noSlot] at slot
      cases slot
    · exact sent
  · rcases execReportWordSent_cases s with ⟨w, slot, -⟩ | ⟨-, sent⟩
    · rw [noSlot] at slot
      cases slot
    · exact sent

/-- Settles O16: order and event rows work while LOCKED alone (`whenLocked_of_not`), and a frame passes. -/
theorem unlockedStationTakesNothing : Obligations.UnlockedStationTakesNothing := by
  intro s hl
  have rests : ∀ f : State → State, Host.Outcome.next (whenLocked f s) = (.next s : Host.Outcome State Fault Refusal) :=
    fun f => congrArg Host.Outcome.next (whenLocked_of_not f hl)
  obtain ⟨noCue, noReport⟩ := exec_departures_of_unlocked hl
  refine ⟨fun i parts hi => ?_, fun lane unit => ?_, fun line => if_neg hl⟩
  · rw [exec_of_orderParts hi]
    exact rests _
  · simp only [List.forall_mem_cons]
    exact ⟨rests _, rests _, rests _, rests _, rests _, rests _, noCue, noReport, nofun⟩

end Sys2Proof.Machine
end

section
/-! What the execution of an order answers: which codes name orders, that a refusal changes nothing, and that the READ orders
only read (R154, R158, R159). -/

namespace Sys2Proof.Machine
-- As in the tests, one thread: the whole text is compiled under one limit of memory.
set_option Elab.async false

/-! Which codes name orders (R154) -/

theorem executeOrder_eq_none_iff (n : Nat) (body : List Payload) : executeOrder n body = none ↔ n = 0 ∨ 22 < n := by
  by_cases h : 22 < n
  · obtain ⟨m, rfl⟩ : ∃ m, n = m + 23 := ⟨n - 23, by omega⟩
    exact iff_of_true rfl (.inr h)
  · interval_cases n <;> simp [executeOrder]

/-- The state-changing orders are those of Table 9-1 that are no READ orders. -/
theorem mem_changingCodes_iff (code : BitVec 8) :
    code ∈ changingCodes ↔ ¬(code.toNat = 0 ∨ 22 < code.toNat) ∧ isReadOrder code.toNat = false := by
  revert code
  decide

/-- Every order is one of unknown code, a READ order or a state-changing one, and is taken as such (R154). -/
theorem takeOrder_cases (code seq : BitVec 8) (body : List Payload) (s : State) :
    (code ∉ changingCodes ∧ takeOrder code seq body s = takeUnknown code seq s)
      ∨ ∃ f, executeOrder code.toNat body = some f
        ∧ ((code ∉ changingCodes ∧ isReadOrder code.toNat = true ∧ takeOrder code seq body s = takeRead code seq f s)
          ∨ (code ∈ changingCodes ∧ takeOrder code seq body s = takeChange code seq f s)) := by
  have known := executeOrder_eq_none_iff code.toNat body
  rw [mem_changingCodes_iff, ← known]
  unfold takeOrder
  cases executeOrder code.toNat body with
  | none => exact .inl ⟨fun h => h.1 rfl, rfl⟩
  | some f =>
    refine .inr ⟨f, rfl, ?_⟩
    cases isReadOrder code.toNat with
    | true => exact .inl ⟨fun h => Bool.noConfusion h.2, rfl, rfl⟩
    | false => exact .inr ⟨⟨nofun, rfl⟩, rfl⟩

/-! What the execution of an order answers -/

/-- An execution of an order reports nothing by itself and is no repeat, and one that a test refuses changes nothing
(R158, R159). -/
structure OrderResult.Answers (r : OrderResult) (s : State) : Prop where
  reports : r.st.reports = s.reports
  executed : r.status ≠ .repeated
  refused : 16 ≤ r.status.code → r.st = s ∧ r.events = []

/-- An execution that only reads: it changes nothing and reports nothing (R154). -/
def OrderResult.Reads (r : OrderResult) (s : State) : Prop :=
  r.status ≠ .repeated ∧ r = { status := r.status, data := r.data, st := s, events := [] }

@[simp] theorem OrderResult.reads_refuse {status : Status} (h : status ≠ .repeated) (s : State) :
    (OrderResult.refuse status s).Reads s := ⟨h, rfl⟩

@[simp] theorem OrderResult.reads_read (data : List Nat) (s : State) : (OrderResult.read data s).Reads s := ⟨nofun, rfl⟩

theorem OrderResult.Reads.answers {r : OrderResult} {s : State} (h : r.Reads s) : r.Answers s := by
  obtain ⟨status, same⟩ := h
  exact ⟨by rw [same], status, fun _ => ⟨by rw [same], by rw [same]⟩⟩

@[simp] theorem OrderResult.answers_refuse {status : Status} (h : status ≠ .repeated) (s : State) :
    (OrderResult.refuse status s).Answers s := (OrderResult.reads_refuse h s).answers

/-- An order that is executed, now or as soon as it can be, is answered so that no refusal is read from it (Table 8-3). -/
theorem OrderResult.answers_of_accepted {r : OrderResult} {s : State} (hr : r.st.reports = s.reports)
    (hs : r.status = .done ∨ r.status = .deferred) : r.Answers s := by
  have low : r.status ≠ .repeated ∧ r.status.code < 16 := by
    rcases hs with hs | hs <;> rw [hs] <;> decide
  exact ⟨hr, low.1, fun h => absurd h (Nat.not_le.mpr low.2)⟩

@[simp] theorem OrderResult.answers_done_iff {t s : State} : (OrderResult.done t).Answers s ↔ t.reports = s.reports :=
  ⟨fun h => h.reports, fun h => OrderResult.answers_of_accepted h (.inl rfl)⟩

theorem State.CaptureFollows.reports {s t : State} (h : s.CaptureFollows t) : t.reports = s.reports := by
  rw [State.CaptureFollows] at h
  rw [h]

theorem State.Cleared.reports {s t : State} (h : s.Cleared t) : t.reports = s.reports := by
  rw [State.Cleared] at h
  rw [h]

section
variable (body : List Payload) (s : State)

/-! The READ orders -/

theorem reads_orderReadStation : (orderReadStation body s).Reads s := by
  unfold orderReadStation
  split <;> simp

theorem reads_orderReadRecord : (orderReadRecord body s).Reads s := by
  unfold orderReadRecord
  repeat' split
  all_goals simp

theorem reads_orderReadCueMap : (orderReadCueMap body s).Reads s := by
  unfold orderReadCueMap
  repeat' split
  all_goals simp

theorem reads_orderReadLane : (orderReadLane body s).Reads s := by
  unfold orderReadLane
  repeat' split
  all_goals simp

theorem reads_orderReadClip : (clipOrder readClip body s).Reads s := by
  unfold clipOrder
  repeat' split
  all_goals simp [readClip]

theorem reads_orderReadLaw : (orderReadLaw body s).Reads s := by
  unfold orderReadLaw
  split <;> simp

theorem reads_orderReadTriggers : (orderReadTriggers body s).Reads s := by
  unfold orderReadTriggers
  split <;> simp

/-! The state-changing orders -/

theorem answers_orderClearStation : (orderClearStation body s).Answers s := by
  have lanes := s.cleared_clearLanes
  have store : (clearScopeStore s).status = .done := by simp only [clearScopeStore]
  have all : (clearScopeAll s).status = .done := by simp only [clearScopeAll]
  unfold orderClearStation
  split
  · split
    · exact OrderResult.answers_of_accepted lanes.reports (.inl rfl)
    · exact OrderResult.answers_of_accepted lanes.tables.reports (.inl rfl)
    · exact OrderResult.answers_of_accepted (by rw [clearScopeStore_st]; exact lanes.store.reports) (.inl store)
    · exact OrderResult.answers_of_accepted (by rw [clearScopeAll_st]; exact lanes.tables.store.reports) (.inl all)
    · simp
  · simp

theorem answers_orderLoadRecord : (orderLoadRecord body s).Answers s := by
  unfold orderLoadRecord
  repeat' split
  all_goals simp

theorem answers_orderEraseRecord : (orderEraseRecord body s).Answers s := by
  unfold orderEraseRecord
  repeat' split
  all_goals simp

theorem answers_orderMapCue : (orderMapCue body s).Answers s := by
  unfold orderMapCue
  repeat' split
  all_goals simp

theorem answers_orderUnmapCue : (orderUnmapCue body s).Answers s := by
  unfold orderUnmapCue
  repeat' split
  all_goals simp

theorem answers_orderTake : (orderTake body s).Answers s := by
  unfold orderTake
  repeat' split
  all_goals simp

theorem answers_orderWaiting (order : WaitingOrder) : (orderWaiting order body s).Answers s := by
  unfold orderWaiting
  repeat' split
  all_goals simp

theorem answers_clipOrder {act : Nat → State → OrderResult} (h : ∀ c, (act c s).Answers s) :
    (clipOrder act body s).Answers s := by
  unfold clipOrder
  repeat' split
  all_goals simp [h]

theorem answers_openClip (c : Nat) : (openClip c s).Answers s := by
  unfold openClip
  split <;> simp

theorem answers_orderAppendClip : (orderAppendClip body s).Answers s := by
  unfold orderAppendClip
  dsimp only
  repeat' split
  all_goals simp [(State.captureFollows_writeSamples _ _ s).reports]

theorem answers_closeClip (c : Nat) : (closeClip c s).Answers s := by
  unfold closeClip
  dsimp only
  repeat' split
  all_goals simp

/-- DELETE CLIP of a clip in use is put off, and so accepted (R82). -/
theorem answers_deleteClip (c : Nat) : (deleteClip c s).Answers s := by
  unfold deleteClip
  dsimp only
  split
  · simp
  · simp
  · split <;> simp
  · split
    · simp
    · exact OrderResult.answers_of_accepted rfl (.inr rfl)
  · exact OrderResult.answers_of_accepted rfl (.inr rfl)

theorem answers_orderCapture : (orderCapture body s).Answers s := by
  unfold orderCapture
  repeat' split
  all_goals simp [captureNow, captureArmed]

theorem answers_orderCancelCapture : (orderCancelCapture body s).Answers s := by
  have follows := (s.captureFollows_orderCancelCapture body).reports
  unfold orderCancelCapture at follows ⊢
  repeat' split
  all_goals simp_all [OrderResult.answers_of_accepted]

theorem answers_orderLoadLaw : (orderLoadLaw body s).Answers s := by
  unfold orderLoadLaw
  repeat' split
  all_goals simp

end

/-- The READ orders read (R154). -/
theorem reads_executeOrder {code : Nat} {body : List Payload} {f : State → OrderResult}
    (h : executeOrder code body = some f) (hr : isReadOrder code = true) (s : State) : (f s).Reads s := by
  simp only [isReadOrder, List.contains_iff_mem, List.mem_cons, List.not_mem_nil, or_false] at hr
  rcases hr with rfl | rfl | rfl | rfl | rfl | rfl | rfl <;> cases h
  · exact reads_orderReadStation body s
  · exact reads_orderReadRecord body s
  · exact reads_orderReadCueMap body s
  · exact reads_orderReadLane body s
  · exact reads_orderReadClip body s
  · exact reads_orderReadLaw body s
  · exact reads_orderReadTriggers body s

theorem answers_executeOrder {code : Nat} {body : List Payload} {f : State → OrderResult}
    (h : executeOrder code body = some f) (s : State) : (f s).Answers s := by
  unfold executeOrder at h
  split at h <;> cases h
  · exact (reads_orderReadStation body s).answers
  · exact answers_orderClearStation body s
  · exact answers_orderLoadRecord body s
  · exact answers_orderEraseRecord body s
  · exact (reads_orderReadRecord body s).answers
  · exact answers_orderMapCue body s
  · exact answers_orderUnmapCue body s
  · exact (reads_orderReadCueMap body s).answers
  · exact answers_orderTake body s
  · exact answers_orderWaiting body s .release
  · exact answers_orderWaiting body s .abort
  · exact (reads_orderReadLane body s).answers
  · exact answers_clipOrder body s (answers_openClip s)
  · exact answers_orderAppendClip body s
  · exact answers_clipOrder body s (answers_closeClip s)
  · exact answers_clipOrder body s (answers_deleteClip s)
  · exact (reads_orderReadClip body s).answers
  · exact answers_orderCapture body s
  · exact answers_orderCancelCapture body s
  · exact answers_orderLoadLaw body s
  · exact (reads_orderReadLaw body s).answers
  · exact (reads_orderReadTriggers body s).answers

end Sys2Proof.Machine
end

section
/-! Orders taken: each is answered once, a repeat and an order of unknown code change nothing else, and a full Report Queue
drops the order (R152 to R159). -/

namespace Sys2Proof.Machine
-- As in the tests, one thread: the whole text is compiled under one limit of memory.
set_option Elab.async false

/-! The taking of an order -/

theorem takeUnknown_told {s : State} (room : s.reports.length < 32) (code seq : BitVec 8) :
    takeUnknown code seq s = s.told code seq .unknownOrder [] :=
  if_neg (by simpa [State.reportsFull] using room)

/-- An order that finds the Report Queue full is dropped, whatever its code (R152). -/
theorem takeOrder_of_full {s : State} (full : 32 ≤ s.reports.length) (code seq : BitVec 8) (body : List Payload) :
    takeOrder code seq body s = s := by
  have dropped : s.reportsFull = true := decide_eq_true full
  rcases takeOrder_cases code seq body s with ⟨-, taken⟩ | ⟨f, -, ⟨-, -, taken⟩ | ⟨-, taken⟩⟩ <;> rw [taken]
  · exact if_pos dropped
  · exact if_pos dropped
  · exact if_pos dropped

/-- What the station that has taken an order holds: one acknowledgement behind the reports that waited, then the event reports
`more`; and the last-taken memory (R155, R158, R159). -/
structure State.AnsweredOnce (s t : State) (code seq : BitVec 8) (status : Status) (data : List Nat) (more : List Report) :
    Prop where
  reports : t.reports
    = s.reports ++ { code := 0, seq := seq, body := toPayloads (code.toNat :: status.code :: data) } :: more
  events : ∀ r ∈ more, r.code ≠ 0
  lastTaken : t.lastTaken = if code ∈ changingCodes ∧ status ≠ .repeated then
    some { seq := seq, code := code, status := status } else s.lastTaken
  refused : 16 ≤ status.code ∨ status = .repeated ∨ code ∉ changingCodes →
    more = [] ∧ t = { s with reports := t.reports, lastTaken := t.lastTaken }

/-- An order that is no state-changing one, or a repeat, leaves its acknowledgement and nothing else. -/
theorem State.answeredOnce_told (s : State) {code : BitVec 8} (seq : BitVec 8) {status : Status} (data : List Nat)
    (h : ¬(code ∈ changingCodes ∧ status ≠ .repeated)) :
    s.AnsweredOnce (s.told code seq status data) code seq status data [] :=
  ⟨rfl, nofun, (if_neg h).symm, fun _ => ⟨rfl, rfl⟩⟩

/-- A state-changing order that is no repeat is executed, recorded and answered (R155, R158). -/
theorem State.answeredOnce_executed {s : State} {code : BitVec 8} (seq : BitVec 8) {r : OrderResult} (h : r.Answers s)
    (hc : code ∈ changingCodes) :
    ∃ more, s.AnsweredOnce
      ((({ r.st with lastTaken := some { seq := seq, code := code, status := r.status } } : State).queueAck seq
        (code.toNat :: r.status.code :: r.data)).offerEvents r.events) code seq r.status r.data more := by
  obtain ⟨more, added, events⟩ := State.offerEvents_reports
    (({ r.st with lastTaken := some { seq := seq, code := code, status := r.status } } : State).queueAck seq
      (code.toNat :: r.status.code :: r.data)) r.events
  refine ⟨more, ?_, events, ?_, fun low => ?_⟩
  · rw [added, State.queueAck_reports, List.append_assoc]
    exact congrArg (· ++ _) h.reports
  · rw [State.offerEvents_lastTaken, if_pos ⟨hc, h.executed⟩]
    rfl
  · obtain ⟨same, silent⟩ := h.refused (low.resolve_right (not_or.mpr ⟨h.executed, not_not_intro hc⟩))
    rw [silent, State.offerEvents_nil] at added ⊢
    exact ⟨List.self_eq_append_right.mp added, by rw [same]; rfl⟩

theorem State.repeatOf_eq_some {s : State} {code seq : BitVec 8} {status : Status} :
    s.repeatOf code seq = some status ↔ s.lastTaken = some { seq := seq, code := code, status := status } := by
  unfold State.repeatOf
  cases s.lastTaken with
  | none => simp
  | some m => obtain ⟨seq', code', status'⟩ := m; simp [and_assoc]

/-- An order that finds room is answered once (R152, R158). -/
theorem takeOrder_answeredOnce {s : State} (room : s.reports.length < 32) (code seq : BitVec 8) (body : List Payload) :
    ∃ status data more, s.AnsweredOnce (takeOrder code seq body s) code seq status data more := by
  have notFull : ¬32 ≤ s.reports.length := Nat.not_le.mpr room
  rcases takeOrder_cases code seq body s with
    ⟨unchanging, taken⟩ | ⟨f, hf, ⟨unchanging, reads, taken⟩ | ⟨changing, taken⟩⟩ <;> rw [taken]
  · rw [takeUnknown_told room]
    exact ⟨_, _, _, s.answeredOnce_told seq [] fun h => unchanging h.1⟩
  · obtain ⟨-, executed⟩ := reads_executeOrder hf reads s
    rcases takeRead_cases code seq f s with ⟨full, -⟩ | ⟨-, answered⟩
    · exact absurd full notFull
    · rw [answered, executed]
      exact ⟨_, _, _, s.answeredOnce_told seq (f s).data fun h => unchanging h.1⟩
  · rcases takeChange_cases code seq f s with ⟨full, -⟩ | ⟨-, status, -, answered⟩ | ⟨-, -, answered⟩
    · exact absurd full notFull
    · rw [answered]
      exact ⟨_, _, _, s.answeredOnce_told seq [status.code] fun h => h.2 rfl⟩
    · rw [answered]
      exact ⟨_, _, State.answeredOnce_executed seq (answers_executeOrder hf s) changing⟩

/-! The statements -/

/-- Of 32 reports at most 24 are event reports, so eight are acknowledgements (R152, R185). -/
theorem State.reportsBounded.acknowledgements {s : State} (h : s.reportsBounded) (full : s.reports.length = 32) :
    8 ≤ s.reports.countP fun r => r.code == 0 := by
  obtain ⟨-, events, -⟩ := h
  have parts := s.reports.length_eq_countP_add_countP fun r => r.code == 0
  have rest : (s.reports.countP fun r => ¬(r.code == 0)) = s.eventCount :=
    List.countP_congr fun r _ => by simp
  omega

/-- Settles O20: no order has such a code (`executeOrder_eq_none_iff`). -/
theorem unknownOrderIsAnswered : Obligations.UnknownOrderIsAnswered := by
  intro s code seq body ⟨locked, room⟩ unknown
  have none := (executeOrder_eq_none_iff code.toNat body).mpr (unknown.imp_left fun h => by rw [h]; rfl)
  rw [exec_of_orderParts rfl, whenLocked_of_locked _ locked, takeOrder, none]
  exact congrArg Host.Outcome.next (takeUnknown_told room code seq)

/-- Settles O18: the memory holds the order, so `takeChange` answers from it. -/
theorem repeatedOrderIsNotExecuted : Obligations.RepeatedOrderIsNotExecuted := by
  intro s i code seq body status parts changing ⟨locked, room⟩ memory
  have remembered := State.repeatOf_eq_some.mpr memory
  rw [exec_of_orderParts parts, whenLocked_of_locked _ locked]
  refine congrArg Host.Outcome.next ?_
  rcases takeOrder_cases code seq body s with ⟨unchanging, -⟩ | ⟨f, -, ⟨unchanging, -⟩ | ⟨-, taken⟩⟩
  · exact absurd changing unchanging
  · exact absurd changing unchanging
  · rw [taken, takeChange, if_neg (by simpa [State.reportsFull] using room), remembered]
    rfl

/-- Settles O19: `takeOrder_answeredOnce`. -/
theorem takenOrderIsAnsweredOnce : Obligations.TakenOrderIsAnsweredOnce := by
  intro s t i code seq body parts ⟨locked, room⟩ taken
  obtain ⟨status, data, more, answered⟩ := takeOrder_answeredOnce room code seq body
  rw [exec_of_orderParts parts, whenLocked_of_locked _ locked] at taken
  cases taken
  exact ⟨status, data, more, answered.reports, answered.events, answered.lastTaken, answered.refused⟩

/-- Settles O17: a full queue drops every order (`takeOrder_of_full`), and room has each answered (`takeOrder_answeredOnce`). -/
theorem fullReportQueueDropsTheOrder : Obligations.FullReportQueueDropsTheOrder := by
  intro s i code seq body parts locked bounded
  rw [exec_of_orderParts parts, whenLocked_of_locked _ locked]
  refine ⟨fun full => ⟨?_, bounded.acknowledgements full⟩, fun room => ?_⟩
  · rw [takeOrder_of_full full.ge]
  · obtain ⟨status, data, more, answered⟩ := takeOrder_answeredOnce room code seq body
    exact ⟨_, _, more, rfl, answered.reports, rfl, rfl⟩

end Sys2Proof.Machine
end

section
/-! The order in assembly concerns the Order Unit alone: the frame work of every other block is the same whatever order is in
assembly (R143, R148). -/

namespace Sys2Proof.Machine
-- As in the tests, one thread: the whole text is compiled under one limit of memory.
set_option Elab.async false

/-- The station with another order in assembly, or none. -/
def State.assembling (s : State) (o : Option Assembly) : State := { s with assembly := o }

/-- The lanes' work under way with another order in assembly. -/
def LaneWork.assembling (w : LaneWork) (o : Option Assembly) : LaneWork := { w with st := w.st.assembling o }

/-- An arrival's work under way with another order in assembly. -/
def ArrivalWork.assembling (w : ArrivalWork) (o : Option Assembly) : ArrivalWork :=
  { w with lanes := w.lanes.assembling o }

section
variable (o : Option Assembly) (s : State)

@[simp] theorem State.assembling_freeBlocks : (s.assembling o).freeBlocks = s.freeBlocks := rfl
@[simp] theorem State.assembling_lane (i : Fin 8) : (s.assembling o).lane i = s.lane i := rfl
@[simp] theorem State.assembling_unit (u : Fin 2) : (s.assembling o).unit u = s.unit u := rfl
@[simp] theorem State.assembling_clip (c : Nat) : (s.assembling o).clip c = s.clip c := rfl
@[simp] theorem State.assembling_actedCues (word : Option ControlWord) :
    (s.assembling o).actedCues word = s.actedCues word := rfl
@[simp] theorem LaneWork.assembling_st (w : LaneWork) : (w.assembling o).st = w.st.assembling o := rfl
@[simp] theorem LaneWork.assembling_reports (w : LaneWork) : (w.assembling o).reports = w.reports := rfl
@[simp] theorem LaneWork.assembling_endCues (w : LaneWork) : (w.assembling o).endCues = w.endCues := rfl
@[simp] theorem ArrivalWork.assembling_lanes (w : ArrivalWork) : (w.assembling o).lanes = w.lanes.assembling o := rfl
@[simp] theorem ArrivalWork.assembling_unitEvents (w : ArrivalWork) : (w.assembling o).unitEvents = w.unitEvents := rfl

end

/-! The lanes -/

section
variable (o : Option Assembly) (w : LaneWork)

theorem releaseClaims_assembling (i : Fin 8) (r : Record) (s : State) :
    releaseClaims i r (s.assembling o) = (releaseClaims i r s).assembling o := by
  have returned : r.voices.foldl (fun s v => s.releaseUse v.clip.val) ((s.setSlots (s.lane i).slots none).assembling o)
      = (r.voices.foldl (fun s v => s.releaseUse v.clip.val) (s.setSlots (s.lane i).slots none)).assembling o :=
    List.foldl_hom (State.assembling · o) fun _ _ => rfl
  exact congrArg (State.setLane · i { s.lane i with slots := [] }) returned

theorem commitLoad_assembling (i : Fin 8) (index : Fin 256) (r : Record) :
    commitLoad i index r (w.assembling o) = (commitLoad i index r w).assembling o := by
  have used : r.voices.foldl (fun s v => s.addUse v.clip.val) ((w.st.setSlots r.slotSet (some i)).assembling o)
      = (r.voices.foldl (fun s v => s.addUse v.clip.val) (w.st.setSlots r.slotSet (some i))).assembling o :=
    List.foldl_hom (State.assembling · o) fun _ _ => rfl
  exact congrArg (fun t : State =>
    ({ w with st := t.setLane i (Lane.loaded index r (effectiveLength w.st r)) } : LaneWork).report _) used

theorem loadRecord_assembling (i : Fin 8) (index : Fin 256) :
    loadRecord i index (w.assembling o) = (loadRecord i index w).assembling o := by
  have test : loadTest (w.assembling o).st i index = loadTest w.st i index := rfl
  cases loaded : loadTest w.st i index with
  | ok r => rw [loadRecord_of_ok loaded, loadRecord_of_ok (test.trans loaded), commitLoad_assembling]
  | error reason => rw [loadRecord_of_error loaded, loadRecord_of_error (test.trans loaded)]; rfl

theorem endRecord_assembling (i : Fin 8) : endRecord i (w.assembling o) = (endRecord i w).assembling o := by
  simp only [endRecord, LaneWork.assembling_st, State.assembling_lane, releaseClaims_assembling]
  split
  · rfl
  · split
    · exact loadRecord_assembling o ⟨_, _, _⟩ i _
    · split
      · exact loadRecord_assembling o ⟨_, _, _⟩ i _
      · rfl

theorem applyWaiting_assembling (i : Fin 8) : applyWaiting i (w.assembling o) = (applyWaiting i w).assembling o := by
  simp only [applyWaiting, applyReleaseOrder, applyAbortOrder, LaneWork.assembling_st, State.assembling_lane,
    releaseClaims_assembling]
  split
  · rfl
  · split <;> rfl
  · split <;> rfl

theorem endIfDue_assembling (i : Fin 8) : endIfDue i (w.assembling o) = (endIfDue i w).assembling o := by
  simp only [endIfDue, LaneWork.assembling_st, State.assembling_lane, endRecord_assembling]
  split <;> rfl

theorem cutTrigger_assembling (i : Fin 8) (t : LaneTrigger) :
    cutTrigger i t (w.assembling o) = (cutTrigger i t w).assembling o := by
  cases running : (w.st.lane i).copy with
  | none => simp only [cutTrigger, LaneWork.assembling_st, State.assembling_lane, running]
  | some r =>
    rw [cutTrigger_of_copy running, cutTrigger_of_copy (w := w.assembling o) running]
    dsimp only
    rw [apply_ite (LaneWork.assembling · o), ← endRecord_assembling]
    rfl

theorem applyTrigger_assembling (i : Fin 8) (t : LaneTrigger) :
    applyTrigger i (w.assembling o) t = (applyTrigger i w t).assembling o := by
  cases busy : (w.st.lane i).busy with
  | false =>
    simp only [applyTrigger, LaneWork.assembling_st, State.assembling_lane, busy, Bool.false_eq_true, if_false]
    exact loadRecord_assembling o w i t.record
  | true =>
    simp only [applyTrigger, LaneWork.assembling_st, State.assembling_lane, busy, if_true]
    split
    · simp only [queueTrigger, LaneWork.assembling_st, State.assembling_lane]
      split <;> rfl
    · exact cutTrigger_assembling o w i t
    · rfl

theorem advanceLane_assembling (i : Fin 8) : advanceLane i (w.assembling o) = (advanceLane i w).assembling o := by
  cases busy : (w.st.lane i).busy <;> simp only [advanceLane, LaneWork.assembling_st, State.assembling_lane, busy]
  · exact if_neg nofun
  · rfl

/-- A lane's steps do not meet the order in assembly (R23). -/
theorem laneSteps_assembling (ts : List LaneTrigger) (i : Fin 8) :
    laneSteps ts i (w.assembling o) = (laneSteps ts i w).assembling o := by
  simp only [laneSteps, applyTriggers, advanceLane_assembling, applyWaiting_assembling, endIfDue_assembling]
  exact List.foldl_hom (LaneWork.assembling · o) fun w t => applyTrigger_assembling o w i t

end

/-! The Clip Store and the capture units -/

section
variable (o : Option Assembly) (s : State)

theorem freeDoomed_assembling :
    (s.assembling o).freeDoomed = (s.freeDoomed.1.assembling o, s.freeDoomed.2) :=
  Prod.ext (List.foldl_hom (State.assembling · o) fun _ _ => rfl) rfl

theorem writeClip_assembling (c : Nat) (x : Sample) :
    (s.assembling o).writeClip c x = (s.writeClip c x).map (State.assembling · o) := by
  by_cases claims : (s.clip c).length % 256 = 0
  · simp only [State.writeClip, State.assembling_clip, State.assembling_freeBlocks, claims, if_true]
    cases s.freeBlocks <;> rfl
  · simp only [State.writeClip, State.assembling_clip, claims, if_false]
    rfl

theorem endCaptureShort_assembling (reason : DoneReason) (u : Fin 2) : endCaptureShort reason u (s.assembling o)
    = ((endCaptureShort reason u s).1.assembling o, (endCaptureShort reason u s).2) := by
  by_cases empty : (s.unit u).written = 0
  · simp only [endCaptureShort, State.assembling_unit, empty, if_true]
    rfl
  · simp only [endCaptureShort, State.assembling_unit, empty, if_false]
    rfl

theorem writeUnit_assembling (programme : SampleSet) (u : Fin 2) : writeUnit programme u (s.assembling o)
    = ((writeUnit programme u s).1.assembling o, (writeUnit programme u s).2) := by
  simp only [writeUnit, State.assembling_unit, writeClip_assembling]
  cases s.writeClip (s.unit u).clipNumber (programme.toList.getD (((s.unit u).slot.map Fin.val).getD 0) 0) with
  | none => exact endCaptureShort_assembling o s .storeFull u
  | some t =>
    by_cases last : (s.unit u).written + 1 = (s.unit u).wanted
    · simp only [Option.map_some, last, if_true]
      rfl
    · simp only [Option.map_some, last, if_false]
      rfl

theorem unitWork_assembling (programme : SampleSet) (delivered : Bool) (u : Fin 2) :
    unitWork programme delivered u (s.assembling o)
      = ((unitWork programme delivered u s).1.assembling o, (unitWork programme delivered u s).2) := by
  cases delivered with
  | false =>
    simp only [unitWork, Bool.false_eq_true, if_false, State.assembling_unit, writeUnit_assembling]
    split <;> rfl
  | true =>
    have started : startUnit u (s.assembling o) = ((startUnit u s).1.assembling o, (startUnit u s).2) := rfl
    simp only [unitWork, if_true, started, State.assembling_unit, writeUnit_assembling]
    split <;> rfl

end

/-! The work of the lanes, the store and the units together -/

section
variable (o : Option Assembly) (p : ArrivalPlan) (s0 : State)

theorem unitAt_assembling (turn : Fin 10) (u : Fin 2) (w : ArrivalWork) :
    unitAt p (s0.assembling o) turn u (w.assembling o) = (unitAt p s0 turn u w).assembling o := by
  have turned : (unitActive p (s0.assembling o) u && unitTurn p (s0.assembling o) u == turn)
      = (unitActive p s0 u && unitTurn p s0 u == turn) := rfl
  simp only [unitAt, turned, ArrivalWork.assembling_lanes, ArrivalWork.assembling_unitEvents, LaneWork.assembling_st,
    unitWork_assembling]
  split <;> rfl

theorem unitsAt_assembling (turn : Fin 10) (w : ArrivalWork) :
    unitsAt p (s0.assembling o) turn (w.assembling o) = (unitsAt p s0 turn w).assembling o := by
  simp only [unitsAt, unitAt_assembling]

theorem laneAt_assembling (w : ArrivalWork) (i : Fin 8) :
    laneAt p (s0.assembling o) (w.assembling o) i = (laneAt p s0 w i).assembling o := by
  simp only [laneAt, unitsAt_assembling, ArrivalWork.assembling_lanes, ArrivalWork.assembling_unitEvents,
    laneSteps_assembling]
  rfl

theorem lanesWork_assembling : lanesWork p (s0.assembling o) = (lanesWork p s0).assembling o := by
  simp only [lanesWork, ← unitsAt_assembling]
  exact congrArg (unitsAt p (s0.assembling o) 8) (List.foldl_hom (ArrivalWork.assembling · o)
    (init := ⟨LaneWork.start s0, Vector.replicate 2 []⟩) fun w i => laneAt_assembling o p s0 w i)

theorem returnsWork_assembling :
    returnsWork p (s0.assembling o) = ((returnsWork p s0).1.assembling o, (returnsWork p s0).2) := by
  have freed := freeDoomed_assembling o (lanesWork p s0).lanes.st
  simp only [returnsWork, lanesWork_assembling, ArrivalWork.assembling_lanes, LaneWork.assembling_st, freed]
  exact Prod.ext (unitsAt_assembling o p s0 9 ⟨⟨_, _, _⟩, _⟩) rfl

end

/-! The Trigger Unit -/

section
variable (o : Option Assembly)

theorem offerCues_assembling (awaited : Nat → Fin 4096 → Bool) (cues : List (Fin 4096 × Fin 4096)) (j : Nat) (s : State) :
    offerCues awaited j cues (s.assembling o)
      = ((offerCues awaited j cues s).1.assembling o, (offerCues awaited j cues s).2) := by
  induction cues generalizing j s with
  | nil => rfl
  | cons c cues ih =>
    have offered : offerCue (s.assembling o) (awaited j) c.1 c.2
        = ((offerCue s (awaited j) c.1 c.2).1.assembling o, (offerCue s (awaited j) c.1 c.2).2) := by
      have test : passesAdmission (s.assembling o) (awaited j) c.1 = passesAdmission s (awaited j) c.1 := rfl
      have full : (s.assembling o).triggersFull = s.triggersFull := rfl
      simp only [offerCue, State.admitCue, test, full]
      split
      · split <;> rfl
      · rfl
    simp only [offerCues, offered, ih]

theorem placeCues_assembling (cues : List EndCue) (s : State) :
    placeCues cues (s.assembling o) = ((placeCues cues s).1.assembling o, (placeCues cues s).2) := by
  induction cues generalizing s with
  | nil => rfl
  | cons c cues ih =>
    have placed : (s.assembling o).placeCueOut c = ((s.placeCueOut c).1.assembling o, (s.placeCueOut c).2) := by
      have list : (s.assembling o).cueOut = s.cueOut := rfl
      simp only [State.placeCueOut, list]
      split <;> rfl
    cases forward : c.forward <;> simp [placeCues, forward, placed, ih]

theorem admitAll_assembling (awaited : Nat → Fin 4096 → Bool) (endCues : List EndCue)
    (cueWord : List (Fin 4096 × Fin 4096)) (s : State) : admitAll awaited endCues cueWord (s.assembling o)
      = ((admitAll awaited endCues cueWord s).1.assembling o, (admitAll awaited endCues cueWord s).2) := by
  simp only [admitAll, offerCues_assembling, placeCues_assembling]

end

/-! The whole frame work -/

/-- The lanes', the units' and the Clip Store's part of an arrival (R23, R67, R93). -/
def State.blocksReturned (programme : SampleSet) (word : Option ControlWord) (s : State) : ArrivalWork × List Event :=
  returnsWork (arrivalPlan s programme) (s.emitted word)

/-- What an arrival does before the Order Unit: the station that the other blocks leave, their reports in the order of R187, and
the samples that leave. -/
def State.blocksWork (programme : SampleSet) (word : Option ControlWord) (s : State) : State × List Event × SampleSet :=
  let work := s.blocksReturned programme word
  let mixed := setPhases work.1.lanes.st
  let admitted := admitAll (awaitedAt (arrivalPlan s programme) (s.emitted word) mixed) work.1.lanes.endCues
    (s.actedCues word) mixed
  (admitted.1, work.1.lanes.reports ++ work.2 ++ work.1.unitEvents[0] ++ work.1.unitEvents[1] ++ admitted.2,
    mixFrame mixed programme)

/-- The frame work of an arrival is that of the other blocks and then that of the Order Unit, whose reports are offered last
(R148, R187). -/
theorem frameWork_eq (programme : SampleSet) (word : Option ControlWord) (s : State) :
    let blocks := s.blocksWork programme word
    let orders := orderUnitWork (word.bind (handedOrderWord s.station)) blocks.1
    frameWork programme word s
      = ({ offerAndDepart s.choices ((arbitrate s word).endsReport s) (blocks.2.1 ++ orders.events) orders.st with
            lineOut := composeFrame blocks.2.2 ((arbitrate s word).word s.frameCount)
            choices := s.choices + 1 }, orders.complete) := by
  cases word <;> rfl

/-- The arbiter chooses without regard to the order in assembly (R193). -/
theorem emitted_assembling (word : Option ControlWord) (s : State) (o : Option Assembly) :
    (s.assembling o).emitted word = (s.emitted word).assembling o := by
  show (arbitrate s word).emit _ = ((arbitrate s word).emit _).assembling o
  cases arbitrate s word <;> rfl

theorem blocksReturned_assembling (programme : SampleSet) (word : Option ControlWord) (s : State) (o : Option Assembly) :
    (s.assembling o).blocksReturned programme word
      = ((s.blocksReturned programme word).1.assembling o, (s.blocksReturned programme word).2) := by
  rw [State.blocksReturned, emitted_assembling]
  exact returnsWork_assembling o (arrivalPlan s programme) (s.emitted word)

theorem setPhases_assembling (s : State) (o : Option Assembly) : setPhases (s.assembling o) = (setPhases s).assembling o := rfl

theorem mixFrame_assembling (s : State) (o : Option Assembly) (programme : SampleSet) :
    mixFrame (s.assembling o) programme = mixFrame s programme := rfl

theorem awaitedAt_assembling (p : ArrivalPlan) (s0 s : State) (o : Option Assembly) :
    awaitedAt p (s0.assembling o) (s.assembling o) = awaitedAt p s0 s := rfl

theorem arrivalPlan_assembling (s : State) (o : Option Assembly) (programme : SampleSet) :
    arrivalPlan (s.assembling o) programme = arrivalPlan s programme := rfl

/-- The other blocks do not meet the order in assembly. -/
theorem blocksWork_assembling (programme : SampleSet) (word : Option ControlWord) (s : State) (o : Option Assembly) :
    (s.assembling o).blocksWork programme word
      = ((s.blocksWork programme word).1.assembling o, (s.blocksWork programme word).2) := by
  simp only [State.blocksWork, blocksReturned_assembling, emitted_assembling, arrivalPlan_assembling, setPhases_assembling,
    mixFrame_assembling, awaitedAt_assembling, admitAll_assembling, ArrivalWork.assembling_lanes,
    ArrivalWork.assembling_unitEvents, LaneWork.assembling_st, LaneWork.assembling_reports, LaneWork.assembling_endCues,
    State.assembling_actedCues]

theorem blocksWork_frameCount (programme : SampleSet) (word : Option ControlWord) (s : State) :
    (s.blocksWork programme word).1.frameCount = s.frameCount := by
  simp only [State.blocksWork, State.blocksReturned]
  rw [admitAll_frame]
  simp only [setPhases]
  rw [returnsWork_follows, State.emitted_frame]
  rfl

end Sys2Proof.Machine
end

section
/-! The order in assembly: its words, and its deadline (R143 to R148). -/

namespace Sys2Proof.Machine
-- As in the tests, one thread: the whole text is compiled under one limit of memory.
set_option Elab.async false

/-! Order words (R144 to R147) -/

section
variable (address : BitVec 5) (p : Payload) (s : State)

theorem handleOrderWord_head : handleOrderWord (some (controlWord .orderHead address p)) s = orderHead address p s := by
  simp only [handleOrderWord, wordKind_controlWord, wordStation_controlWord, wordPayload_controlWord]

theorem handleOrderWord_body : handleOrderWord (some (controlWord .orderBody address p)) s = orderBody address p s := by
  simp only [handleOrderWord, wordKind_controlWord, wordStation_controlWord, wordPayload_controlWord]

theorem handleOrderWord_end : handleOrderWord (some (controlWord .orderEnd address p)) s = orderEnd address p s := by
  simp only [handleOrderWord, wordKind_controlWord, wordStation_controlWord, wordPayload_controlWord]

end

/-- The assembly that a HEAD word begins, once it holds the words `body` (R144, R145). -/
def Assembly.gathering (address : BitVec 5) (code seq : BitVec 8) (declared : Nat) (body : List Payload) (start : FrameCount) :
    Assembly :=
  { address := address, code := code, seq := seq, declared := declared, body := body,
    sum := bodyCheck (headPayload code seq declared) body, start := start }

/-- What a HEAD word reports of the order in assembly before it (R144). -/
def Assembly.interruptReport : Option Assembly → List Event
  | none => []
  | some a => [.orderDiscarded a.seq .interrupted]

/-- A HEAD word begins an order and interrupts the one before it (R144). -/
theorem orderHead_begins (address : BitVec 5) (code seq : BitVec 8) {declared : Nat} (h : declared ≤ 64) (s : State) :
    orderHead address (headPayload code seq declared) s
      = { st := s.assembling (some (Assembly.gathering address code seq declared [] s.frameCount))
          events := Assembly.interruptReport s.assembly
          complete := none } := by
  obtain ⟨hcode, hseq, hlength, -⟩ := headPayload_fields code seq (show declared < 256 by omega)
  simp only [orderHead, hcode, hseq, hlength, if_neg (Nat.not_lt.mpr h)]
  cases s.assembly <;> rfl

/-- A BODY word joins an order that declares more words than it holds (R145). -/
theorem orderBody_joins (address : BitVec 5) (code seq : BitVec 8) {declared : Nat} {body : List Payload} (start : FrameCount)
    (h : body.length < declared) (p : Payload) (s : State) :
    (orderBody address p (s.assembling (some (Assembly.gathering address code seq declared body start)))).st
      = s.assembling (some (Assembly.gathering address code seq declared (body ++ [p]) start)) := by
  have room : ¬declared ≤ body.length := Nat.not_le.mpr h
  have sum : bodyCheck (headPayload code seq declared) (body ++ [p])
      = addToSum (bodyCheck (headPayload code seq declared) body) p := by simp [bodyCheck]
  simp only [orderBody, State.assembling, Assembly.gathering, ne_eq, not_true_eq_false, if_false, room, sum]

/-- The BODY words of an order, one after another (R145). -/
theorem orderBody_gathers (address : BitVec 5) (code seq : BitVec 8) {declared : Nat} (start : FrameCount) (s : State)
    (rest body : List Payload) (h : body.length + rest.length ≤ declared) :
    rest.foldl (fun u p => (handleOrderWord (some (controlWord .orderBody address p)) u).st)
        (s.assembling (some (Assembly.gathering address code seq declared body start)))
      = s.assembling (some (Assembly.gathering address code seq declared (body ++ rest) start)) := by
  induction rest generalizing body with
  | nil => rw [List.append_nil]; rfl
  | cons p rest ih =>
    rw [List.length_cons] at h
    rw [List.foldl_cons, handleOrderWord_body, orderBody_joins address code seq start (by omega),
      ih (body ++ [p]) (by simp; omega), List.append_assoc]
    rfl

/-- The END word of an order whose words have all come completes it when its check is right, and discards it when not
(R146, R147). -/
theorem orderEnd_closes {a : Assembly} (h : a.body.length = a.declared) (hd : a.declared ≤ 64) (check : BitVec 16) (s : State) :
    orderEnd a.address (endPayload check a.declared) (s.assembling (some a))
      = if check = a.sum then { st := s.assembling none, events := [], complete := some a }
        else { st := s.assembling none, events := [.orderDiscarded a.seq .check], complete := none } := by
  obtain ⟨hcheck, hlength, -⟩ := endPayload_fields check (show a.declared < 256 by omega)
  simp only [orderEnd, State.assembling, h, hlength, hcheck, ne_eq, not_true_eq_false, or_self, if_false, ite_not]

/-- The words of an order, HEAD, BODY and END, one after another (R144 to R147). -/
theorem handleOrderWord_gathers (s : State) (address : BitVec 5) (code seq : BitVec 8) (body : List Payload)
    (check : BitVec 16) (h : body.length ≤ 64) :
    let head := headPayload code seq body.length
    let begun := handleOrderWord (some (controlWord .orderHead address head)) s
    let grown := body.foldl (fun u p => (handleOrderWord (some (controlWord .orderBody address p)) u).st) begun.st
    let order := Assembly.gathering address code seq body.length body s.frameCount
    begun.events = Assembly.interruptReport s.assembly
      ∧ handleOrderWord (some (controlWord .orderEnd address (endPayload check body.length))) grown
        = if check = bodyCheck head body then { st := s.assembling none, events := [], complete := some order }
          else { st := s.assembling none, events := [.orderDiscarded seq .check], complete := none } := by
  intro head begun grown order
  have beginning : begun = _ := (handleOrderWord_head address head s).trans (orderHead_begins address code seq h s)
  have gathered : grown = s.assembling (some order) := by
    simp only [grown, beginning]
    exact orderBody_gathers address code seq s.frameCount s body [] (by simp)
  refine ⟨by rw [beginning], ?_⟩
  rw [gathered, handleOrderWord_end]
  exact orderEnd_closes (a := order) rfl h check s

/-- A station with no order in assembly takes no notice of BODY and END words; a HEAD word that declares at most 64 words raises
no report there; and none of them completes an order (R144 to R146). -/
theorem handleOrderWord_of_none (w : Option ControlWord)
    (h : ∀ x, w = some x → wordKind x = .orderHead → bodyLength (wordPayload x) ≤ 64) (s : State) :
    (handleOrderWord w (s.assembling none)).events = [] ∧ (handleOrderWord w (s.assembling none)).complete = none := by
  cases w with
  | none => exact ⟨rfl, rfl⟩
  | some x =>
    simp only [handleOrderWord]
    split
    next head =>
      have short : ¬64 < bodyLength (wordPayload x) := Nat.not_lt.mpr (h x rfl head)
      simp [orderHead, short, State.assembling]
    · exact ⟨rfl, rfl⟩
    · exact ⟨rfl, rfl⟩
    · exact ⟨rfl, rfl⟩

/-! The deadline (R148) -/

theorem checkDeadline_of_other {s : State} (h : ∀ a, s.assembly = some a → s.frameCount ≠ a.start + 2048) :
    checkDeadline s = (s, []) := by
  unfold checkDeadline
  split
  · rfl
  next a ha => exact if_neg (h a ha)

theorem checkDeadline_of_due {a : Assembly} {s : State} (h : s.frameCount = a.start + 2048) :
    checkDeadline (s.assembling (some a)) = (s.assembling none, [.orderDiscarded a.seq .timeout]) := if_pos h

/-- With no order in assembly the Order Unit's part is that of the order word alone. -/
theorem orderUnitWork_assembling_none (w : Option ControlWord) (s : State) :
    orderUnitWork w (s.assembling none) = handleOrderWord w (s.assembling none) := rfl

/-- The deadline discards the order and then meets the order word as a station without one does (R148). -/
theorem orderUnitWork_of_due {a : Assembly} {s : State} (h : s.frameCount = a.start + 2048) (w : Option ControlWord) :
    orderUnitWork w (s.assembling (some a))
      = { handleOrderWord w (s.assembling none) with
          events := .orderDiscarded a.seq .timeout :: (handleOrderWord w (s.assembling none)).events } := by
  simp only [orderUnitWork, checkDeadline_of_due h, List.singleton_append]

/-- Before its deadline an order is completed by its END word (R146 to R148). -/
theorem orderUnitWork_completes {a : Assembly} (h : a.body.length = a.declared) (hd : a.declared ≤ 64) {s : State}
    (early : s.frameCount ≠ a.start + 2048) :
    orderUnitWork (some (controlWord .orderEnd a.address (endPayload a.sum a.declared))) (s.assembling (some a))
      = { st := s.assembling none, events := [], complete := some a } := by
  have checked := checkDeadline_of_other (s := s.assembling (some a)) fun b hb => by cases hb; exact early
  simp only [orderUnitWork, checked, handleOrderWord_end, orderEnd_closes h hd, if_true, List.append_nil]

/-- TIMEOUT (R148, log entry 5). -/
theorem meetDeadline_eq (a : Assembly) {s : State} (ha : s.assembly = some a) :
    meetDeadline s = if s.frameCount = a.start + 2048 ∨ s.frameCount = a.start + 2047 then
      ({ s with assembly := none } : State).offerEvent (.orderDiscarded a.seq .timeout) else s := by
  have next : s.frameCount + 1 = a.start + 2048 ↔ s.frameCount = a.start + 2047 := by
    constructor <;> intro h <;> bv_omega
  simp only [meetDeadline, ha, next]

end Sys2Proof.Machine
end

section
/-! Arrivals that end the assembly of an order: with its END word, or at its deadline (R146, R148, R153, R187). -/

namespace Sys2Proof.Machine
-- As in the tests, one thread: the whole text is compiled under one limit of memory.
set_option Elab.async false

/-! The frame work -/

/-- The frame work of a station with any order in assembly, from that of the other blocks with none. -/
theorem frameWork_assembling (programme : SampleSet) (word : Option ControlWord) (s : State) (o : Option Assembly) :
    let blocks := s.blocksWork programme word
    let orders := orderUnitWork (word.bind (handedOrderWord s.station)) (blocks.1.assembling o)
    frameWork programme word (s.assembling o)
      = ({ offerAndDepart s.choices ((arbitrate s word).endsReport s) (blocks.2.1 ++ orders.events) orders.st with
            lineOut := composeFrame blocks.2.2 ((arbitrate s word).word s.frameCount)
            choices := s.choices + 1 }, orders.complete) := by
  rw [frameWork_eq, blocksWork_assembling]
  rfl

/-- The arrival of the END word that completes an order does the frame work of a station with no order in assembly (R153). -/
theorem frameWork_completes {a : Assembly} {s : State} {programme : SampleSet}
    (haddress : a.address = s.station ∨ a.address = 31) (h : a.body.length = a.declared) (hd : a.declared ≤ 64)
    (early : s.frameCount ≠ a.start + 2048) :
    let word := some (controlWord .orderEnd a.address (endPayload a.sum a.declared))
    frameWork programme word (s.assembling (some a)) = ((frameWork programme word (s.assembling none)).1, some a)
      ∧ (frameWork programme word (s.assembling none)).1.assembly = none := by
  intro word
  have handed : word.bind (handedOrderWord s.station) = word := by
    simp only [word, Option.bind_some, handedOrderWord, wordKind_controlWord, wordStation_controlWord]
    exact if_pos haddress
  have completed := orderUnitWork_completes h hd (s := (s.blocksWork programme word).1)
    ((blocksWork_frameCount programme word s).symm ▸ early)
  have ignored : orderUnitWork word ((s.blocksWork programme word).1.assembling none)
      = { st := (s.blocksWork programme word).1.assembling none, events := [], complete := none } :=
    handleOrderWord_end a.address _ _
  simp only [frameWork_assembling, handed, ignored]
  refine ⟨?_, ?_⟩
  · rw [completed]
  · rw [offerAndDepart_frame]
    rfl

/-- One offer does not read the line or the count of choices. -/
theorem State.offerEvent_with_line (s : State) (line : LineFrame) (choices : Nat) (e : Event) :
    ({ s with lineOut := line, choices := choices } : State).offerEvent e
      = { s.offerEvent e with lineOut := line, choices := choices } :=
  s.offerEvents_with_line line choices [e]

/-- At the arrival of the deadline the frame work is that of a station with no order in assembly, and the discard is reported
last; no order is completed (R148, R187). -/
theorem frameWork_of_due {a : Assembly} {s : State} {word : Option ControlWord} (due : s.frameCount = a.start + 2048)
    (short : ∀ x, word.bind (handedOrderWord s.station) = some x → wordKind x = .orderHead →
      bodyLength (wordPayload x) ≤ 64)
    (stays : (arbitrate s word).endsReport s = false) (programme : SampleSet) :
    (frameWork programme word (s.assembling none)).2 = none
      ∧ frameWork programme word (s.assembling (some a))
        = ((frameWork programme word (s.assembling none)).1.offerEvent (.orderDiscarded a.seq .timeout), none) := by
  have due' : (s.blocksWork programme word).1.frameCount = a.start + 2048 := (blocksWork_frameCount ..).trans due
  obtain ⟨silent, incomplete⟩ := handleOrderWord_of_none _ short (s.blocksWork programme word).1
  simp only [frameWork_assembling, orderUnitWork_of_due due', orderUnitWork_assembling_none, silent, incomplete, stays,
    offerAndDepart_of_stays, List.append_nil, State.offerEvents_append, State.offerEvents_cons, State.offerEvents_nil,
    State.offerEvent_with_line]
  exact ⟨trivial, trivial⟩

/-! The words of an arrival as numbers (Tables 7-4 and 7-6) -/

theorem toNat_of_orderHead {w : ControlWord} (h : wordKind w = .orderHead) : w.toNat / 536870912 = 2 := by
  have number : w.toNat = 2 * 536870912 + (wordStation w).toNat * 16777216 + (wordPayload w).toNat := by
    rw [← controlWord_fields w, controlWord_toNat, h, wordStation_controlWord, wordPayload_controlWord]
    rfl
  have := (wordStation w).isLt
  have := (wordPayload w).isLt
  omega

theorem bodyLength_wordPayload (w : ControlWord) : bodyLength (wordPayload w) = w.toNat % 256 := by
  show ((w.extractLsb' 0 24).extractLsb' 0 8).toNat = _
  rw [BitVec.extractLsb'_toNat, BitVec.extractLsb'_toNat, Nat.shiftRight_eq_div_pow, Nat.shiftRight_eq_div_pow]
  omega

/-- A free slot that ends the head report takes it off the queue (R191). -/
theorem reports_of_endsReport {s : State} (h : (freeSlotChoice s).endsReport s = true) :
    (s.slotOutcome s.frameCount none).2.2.1 ≠ s.reports := by
  cases cues : s.cueOut with
  | cons e rest =>
    simp only [freeSlotChoice, cues] at h
    cases h
  | nil =>
    cases reports : s.reports with
    | nil =>
      simp only [freeSlotChoice, cues, State.offeredReportWord, reports] at h
      cases h
    | cons r rest =>
      have last : s.wordPos = r.body.length + 1 := by
        simp only [freeSlotChoice, cues] at h
        split at h
        · simpa only [SlotChoice.endsReport, State.offersLastWord, reports, beq_iff_eq] using h
        · cases h
      simp only [State.slotOutcome, cues, reports, last, if_true]
      exact (List.cons_ne_self r rest).symm

/-- No report leaves at an arrival that leaves the reports as they stand (R191, R193). -/
theorem endsReport_eq_false {s : State} {word : Option ControlWord}
    (h : (s.slotOutcome s.frameCount word).2.2.1 = s.reports) : (arbitrate s word).endsReport s = false := by
  refine Bool.eq_false_iff.mpr fun ends => ?_
  cases word with
  | none => exact reports_of_endsReport ends h
  | some w =>
    cases travels : travelsOn s.station w with
    | true =>
      rw [arbitrate, passesOn_eq_travelsOn, travels] at ends
      cases ends
    | false =>
      have choice : arbitrate s (some w) = freeSlotChoice s := by simp [arbitrate, passesOn_eq_travelsOn, travels]
      rw [choice] at ends
      refine reports_of_endsReport ends (Eq.trans ?_ h)
      simp [State.slotOutcome, travels]

/-! The statements -/

/-- The arrival that completes an order: it does its work as one with nothing in assembly does, and then the order is taken
(R153). -/
theorem exec_frameArrival_completes {s : State} {line : LineFrame} {a : Assembly} (hl : s.lock = .locked)
    (good : (frameOfLine line).good = true) (ha : s.assembly = some a) (haddress : a.address = s.station ∨ a.address = 31)
    (filled : a.body.length = a.declared) (hd : a.declared ≤ 64)
    (control : (frameOfLine line).control = controlWord .orderEnd a.address (endPayload a.sum a.declared))
    (early : s.frameCount + 1 ≠ a.start + 2048) :
    let c := s.received (frameOfLine line).samples 0
    let u := (frameWork (frameOfLine line).samples (some (frameOfLine line).control) (c.assembling none)).1
    exec (.frameArrival line) s = .next (takeOrder a.code a.seq a.body u)
      ∧ exec (.frameArrival line) (s.assembling none) = .next u ∧ u.assembly = none ∧ u.lock = .locked := by
  intro c u
  have assembled : c = c.assembling (some a) := congrArg c.assembling ha
  obtain ⟨work, unassembled⟩ :=
    frameWork_completes (s := c) (programme := (frameOfLine line).samples) haddress filled hd early
  rw [← control] at work unassembled
  have frame := frameWork_frame (frameOfLine line).samples (some (frameOfLine line).control) (c.assembling none)
  refine ⟨?_, ?_, unassembled, (congrArg State.lock frame).trans hl⟩
  · rw [exec_frameArrival line hl, arriveLocked_good s good, arriveGood_eq]
    change Host.Outcome.next (takeComplete (frameWork _ _ c).2 (frameWork _ _ c).1) = _
    rw [assembled, work]
    rfl
  · exact exec_frameArrival_of_takes (s := s.assembling none) hl (.inl ⟨good, rfl, rfl, rfl⟩)
      (frameWork_completes_nothing rfl _ _)

/-- Settles O15: `handleOrderWord_gathers` for the words of an order, `exec_frameArrival_completes` for the arrival of its END
word. -/
theorem sentOrderIsGathered : Obligations.SentOrderIsGathered := by
  refine ⟨fun s address code seq body check h => ?_, fun s line a hl good ha haddress filled hd control early => ?_⟩
  · obtain ⟨interrupted, closed⟩ := handleOrderWord_gathers s address code seq body check h
    refine ⟨interrupted.trans (by cases s.assembly <;> rfl), ?_, fun right => ?_, fun wrong => ?_⟩
    · rw [closed]
      split <;> rfl
    · rw [closed, if_pos right]
      exact ⟨rfl, _, rfl, rfl, rfl, rfl, rfl, rfl⟩
    · rw [closed, if_neg wrong]
      exact ⟨rfl, rfl⟩
  · obtain ⟨arrived, without, unassembled, locked⟩ := exec_frameArrival_completes hl good ha haddress filled hd control early
    refine ⟨_, without, unassembled, fun i parts => ?_⟩
    rw [arrived, exec_of_orderParts parts, whenLocked_of_locked _ locked]

/-- Settles O49: the row by `meetDeadline_eq`, the arrival by `frameWork_of_due`. -/
theorem timeoutDiscardsTheOrder : Obligations.TimeoutDiscardsTheOrder := by
  intro s hl
  have row : exec .timeout s = .next (meetDeadline s) := congrArg Host.Outcome.next (whenLocked_of_locked _ hl)
  refine ⟨fun ha => ?_, fun a ha => ?_, fun a line word ha due hword short stays => ?_⟩
  · rw [row, meetDeadline, ha]
  · rw [row, meetDeadline_eq a ha]
  · obtain ⟨samples, run, taken⟩ := State.exists_takes hword
    have assembled : s.received samples run = (s.received samples run).assembling (some a) :=
      congrArg (s.received samples run).assembling ha
    have handed : ∀ x, word.bind (handedOrderWord s.station) = some x → wordKind x = .orderHead →
        bodyLength (wordPayload x) ≤ 64 := by
      intro x hx head
      obtain ⟨w, hw, handed⟩ := Option.bind_eq_some_iff.mp hx
      rw [handedOrderWord_eq, Option.ite_none_right_eq_some] at handed
      obtain ⟨forUnit, same⟩ := handed
      cases same
      rw [bodyLength_wordPayload]
      exact short _ hw forUnit (toNat_of_orderHead head)
    obtain ⟨incomplete, work⟩ := frameWork_of_due (s := s.received samples run) due handed (endsReport_eq_false stays) samples
    refine ⟨_, exec_frameArrival_of_takes hl (s := s.assembling none) taken incomplete, ?_⟩
    have completes : (frameWork samples word (s.received samples run)).2 = none := by rw [assembled, work]
    rw [exec_frameArrival_of_takes hl taken completes, assembled, work]
    rfl

end Sys2Proof.Machine
end

section
/-! READ STATION and CLEAR STATION: the nineteen words of the summary, and what each scope clears, reports and leaves (R45, R85,
R99, R164 to R172). -/

namespace Sys2Proof.Machine
-- As in the tests, one thread: the whole text is compiled under one limit of memory.
set_option Elab.async false

/-! READ STATION (R164, Table 9-3) -/

theorem orderReadStation_of_length {body : List Payload} (h : body.length ≠ 0) (s : State) :
    orderReadStation body s = .refuse .badLength s := by
  cases body with
  | nil => exact absurd rfl h
  | cons w rest => rfl

/-- The summary of a LOCKED station, word by word. -/
theorem orderReadStation_nil {s : State} (locked : s.lock = .locked) :
    orderReadStation [] s = .read
      [s.station.toNat, 2, s.frameCount.toNat / 16777216, s.frameCount.toNat % 16777216, s.freeBlocks.length,
        s.triggers.length, s.reports.length, s.lost, (s.lane 0).phase.code, (s.lane 1).phase.code, (s.lane 2).phase.code,
        (s.lane 3).phase.code, (s.lane 4).phase.code, (s.lane 5).phase.code, (s.lane 6).phase.code, (s.lane 7).phase.code,
        (s.unit 0).state.code, (s.unit 1).state.code, (s.lastTaken.map fun m => m.seq.toNat).getD 256] s := by
  simp only [orderReadStation, locked]
  cases s.lastTaken <;> rfl

/-- Settles O21: an empty body reads the summary, and no other body does. -/
theorem readStationReturnsTheSummary : Obligations.ReadStationReturnsTheSummary := by
  unfold Obligations.ReadStationReturnsTheSummary
  intro phase state s seq body taken
  refine congrArg Host.Outcome.next ?_
  have phaseCode : ∀ p : Phase, p.code = phase p := fun p => by cases p <;> rfl
  have stateCode : ∀ u : UnitState, u.code = state u := fun u => by cases u <;> rfl
  split
  · rename_i hlen
    exact takeRead_told taken (orderReadStation_of_length hlen s)
  · rename_i hlen
    obtain rfl := List.length_eq_zero_iff.mp (not_not.mp hlen)
    have read := orderReadStation_nil taken.1
    simp only [phaseCode, stateCode] at read
    exact takeRead_told taken read

/-! The capture units cancelled (R97, R99) -/

/-- What the cancelling of a unit reports: nothing for an IDLE one (R97, R99). -/
def CaptureUnit.cancelReport (u : Fin 2) (reason : CancelReason) (v : CaptureUnit) : List Event :=
  if v.state = .idle then [] else [.captureCancelled u v.clipNumber reason]

theorem cancelUnit_reports (reason : CancelReason) (u : Fin 2) (s : State) :
    (cancelUnit reason u s).2 = (s.unit u).cancelReport u reason := by
  simp only [cancelUnit, CaptureUnit.cancelReport]
  split <;> rfl

/-- A cancelled unit is IDLE, and the other one is as it was. -/
theorem cancelUnit_unit {s : State} {u : Fin 2} (h : (s.unit u).state = .idle → s.unit u = CaptureUnit.idle)
    (reason : CancelReason) (v : Fin 2) :
    (cancelUnit reason u s).1.unit v = if v = u then CaptureUnit.idle else s.unit v := by
  by_cases idle : (s.unit u).state = .idle
  · simp only [cancelUnit, if_pos idle]
    split
    · rename_i hv; rw [hv, h idle]
    · rfl
  · simp only [cancelUnit, if_neg idle]
    rw [State.unit_setUnit, State.unit_congr (State.freeClip_units ..)]

theorem cancelUnit_frame (reason : CancelReason) (u : Fin 2) (s : State) : (cancelUnit reason u s).1
    = { s with units := (cancelUnit reason u s).1.units, clips := (cancelUnit reason u s).1.clips
               freeBlocks := (cancelUnit reason u s).1.freeBlocks } := by
  simp only [cancelUnit]
  split <;> rfl

/-- Both units cancelled, unit 0 first: they are IDLE, and each that was not reports. -/
theorem cancelUnits_spec {s : State} (h : ∀ u, (s.unit u).state = .idle → s.unit u = CaptureUnit.idle)
    (reason : CancelReason) :
    let t := (eachUnit (cancelUnit reason) s).1
    (∀ u, t.unit u = CaptureUnit.idle)
      ∧ (eachUnit (cancelUnit reason) s).2 = (List.finRange 2).flatMap (fun u => (s.unit u).cancelReport u reason)
      ∧ t = { s with units := t.units, clips := t.clips, freeBlocks := t.freeBlocks } := by
  have first := cancelUnit_unit (h 0) reason
  have kept : (cancelUnit reason 0 s).1.unit 1 = s.unit 1 := (first 1).trans (if_neg (by decide))
  have second := cancelUnit_unit (s := (cancelUnit reason 0 s).1) (u := 1) (by rw [kept]; exact h 1) reason
  simp only [eachUnit]
  refine ⟨Fin.forall_fin_two.mpr ⟨?_, ?_⟩, ?_, ?_⟩
  · rw [second, if_neg (by decide), first, if_pos rfl]
  · rw [second, if_pos rfl]
  · rw [cancelUnit_reports, cancelUnit_reports, kept]
    simp [List.finRange_succ]
  · rw [cancelUnit_frame, cancelUnit_frame]

theorem clearStore_eq (s : State) : clearStore s
    = ({ (eachUnit (cancelUnit .cleared) s).1 with clips := [], freeBlocks := List.range 4096 },
      (eachUnit (cancelUnit .cleared) s).2) := by
  simp only [clearStore]

/-- The store cleared: both units cancelled and IDLE, every clip FREE and every block on the Free Block List (R85, R99, R169). -/
theorem clearStore_spec {s : State} (h : ∀ u, (s.unit u).state = .idle → s.unit u = CaptureUnit.idle) :
    let t := (clearStore s).1
    (∀ u, t.unit u = CaptureUnit.idle) ∧ (∀ c, t.clip c = Clip.freed) ∧ t.freeBlocks = List.range 4096
      ∧ (clearStore s).2 = (List.finRange 2).flatMap (fun u => (s.unit u).cancelReport u .cleared)
      ∧ t = { s with units := t.units, clips := t.clips, freeBlocks := t.freeBlocks } := by
  obtain ⟨idle, reports, frame⟩ := cancelUnits_spec h .cleared
  -- Under a name of its own the list of 4096 blocks is not unfolded below.
  obtain ⟨blocks, all⟩ : ∃ blocks, blocks = List.range 4096 := ⟨_, rfl⟩
  rw [clearStore_eq, ← all]
  generalize eachUnit (cancelUnit .cleared) s = e at *
  exact ⟨idle, fun _ => rfl, rfl, reports, by rw [frame]⟩

/-! What each scope clears (R167 to R171) -/

/-- `u` is `s` with the lanes and the Trigger Unit's queues cleared, the tables too if `tables`, the store and the captures too
if `store`; `events` is what that reports, in the order of R172. Nothing else differs. -/
structure State.ScopeCleared (s : State) (tables store : Bool) (u : State) (events : List Event) : Prop where
  lanes : ∀ i, u.lane i = Lane.idle
  slots : ∀ j : Fin 16, u.slots[j] = none
  tablesHold : if tables then u.table = [] ∧ u.cueMap = [] ∧ u.law = State.defaultLaw
    else u.table = s.table ∧ u.cueMap = s.cueMap ∧ u.law = s.law
  storeHolds : if store then
      (∀ v, u.unit v = CaptureUnit.idle) ∧ (∀ c, u.clip c = Clip.freed) ∧ u.freeBlocks = List.range 4096
    else
      u.units = s.units
        ∧ (∀ c, u.clip c = if (s.clip c).state = .doomed then Clip.freed else { s.clip c with uses := 0 })
        ∧ u.freeBlocks = s.freeBlocks ++ s.doomedClips.flatMap (fun c => (s.clip c).chain)
  events : events = s.abandonReports .cleared ++ s.doomedClips.map Event.clipFreed
    ++ if store then (List.finRange 2).flatMap (fun v => (s.unit v).cancelReport v .cleared) else []
  frame : u = { s with
    triggers := [], cueOut := [], lanes := u.lanes, slots := u.slots, table := u.table, cueMap := u.cueMap, law := u.law
    units := u.units, clips := u.clips, freeBlocks := u.freeBlocks }

/-- Scope LANES (R167). -/
theorem State.Sound.lanesCleared {s : State} (h : s.Sound) :
    s.ScopeCleared false false (clearLanes s).1 (clearLanes s).2 := by
  obtain ⟨-, -, sorted, -⟩ := h.canonical
  obtain ⟨-, -, -, -, raised, -⟩ := abandonLanes_spec .cleared sorted h.lanes h.uses
  obtain ⟨-, lanes, slots, clips, blocks, freed, frame⟩ := State.abandoned_spec .cleared sorted h.lanes h.uses
  have cleared : clearLanes s = ((s.abandoned .cleared).flushTriggers,
      (abandonLanes .cleared s).reports ++ (abandonLanes .cleared s).st.freeDoomed.2) := by
    simp only [clearLanes, State.abandoned]
  rw [cleared, raised, freed]
  generalize s.abandoned .cleared = a at *
  refine ⟨lanes, slots, ?_, ⟨?_, clips, blocks⟩, (List.append_nil _).symm, ?_⟩
  · rw [frame]; exact ⟨rfl, rfl, rfl⟩
  · rw [frame]; rfl
  · rw [frame]; rfl

/-- What scope TABLES adds (R168). -/
theorem State.ScopeCleared.withTables {s u : State} {tables store : Bool} {events : List Event}
    (h : s.ScopeCleared tables store u events) : s.ScopeCleared true store (clearTables u) events := by
  refine ⟨h.lanes, h.slots, ⟨rfl, rfl, rfl⟩, h.storeHolds, h.events, ?_⟩
  rw [h.frame]; rfl

/-- What scope STORE adds (R169). -/
theorem State.ScopeCleared.withStore {s u : State} {tables : Bool} {events : List Event}
    (h : s.ScopeCleared tables false u events) (sound : ∀ v, unitSound s v) :
    s.ScopeCleared tables true (clearStore u).1 (events ++ (clearStore u).2) := by
  have units : ∀ v, u.unit v = s.unit v := State.unit_congr h.storeHolds.1
  obtain ⟨idle, freed, blocks, reports, frame⟩ :=
    clearStore_spec (s := u) fun v hv => by rw [units] at hv ⊢; exact (sound v).idle hv
  simp only [units] at reports
  generalize clearStore u = e at *
  have kept := h.tablesHold
  refine ⟨fun i => ?_, fun j => ?_, ?_, ⟨idle, freed, blocks⟩, ?_, ?_⟩
  · exact (State.lane_congr (by rw [frame]) i).trans (h.lanes i)
  · rw [frame]; exact h.slots j
  · rw [frame]; exact kept
  · rw [h.events, reports]
    exact congrArg (· ++ _) (List.append_nil _)
  · rw [frame, h.frame]

theorem clearScopeStore_eq (s : State) : clearScopeStore s
    = { status := .done, data := [], st := (clearStore (clearLanes s).1).1
        events := (clearLanes s).2 ++ (clearStore (clearLanes s).1).2 } := by
  simp only [clearScopeStore]

theorem clearScopeAll_eq (s : State) : clearScopeAll s
    = { status := .done, data := [], st := (clearStore (clearTables (clearLanes s).1)).1
        events := (clearLanes s).2 ++ (clearStore (clearTables (clearLanes s).1)).2 } := by
  simp only [clearScopeAll]

/-- CLEAR STATION of a scope, on a sound station (R166). -/
theorem orderClearStation_of_scope {s : State} (h : s.Sound) (scope : Fin 4) :
    ∃ u events, orderClearStation [BitVec.ofNat 24 scope.val] s
        = { status := .done, data := [], st := u, events := events }
      ∧ s.ScopeCleared (decide (scope = 1 ∨ scope = 3)) (decide (2 ≤ scope.val)) u events := by
  obtain ⟨-, sound, -⟩ := h.capture
  match scope with
  | 0 => exact ⟨_, _, rfl, h.lanesCleared⟩
  | 1 => exact ⟨_, _, rfl, h.lanesCleared.withTables⟩
  | 2 => exact ⟨_, _, clearScopeStore_eq s, h.lanesCleared.withStore sound⟩
  | 3 => exact ⟨_, _, clearScopeAll_eq s, h.lanesCleared.withTables.withStore sound⟩

theorem orderClearStation_of_length {body : List Payload} (h : body.length ≠ 1) (s : State) :
    orderClearStation body s = .refuse .badLength s := by
  unfold orderClearStation
  split
  · exact absurd rfl h
  · rfl

theorem orderClearStation_of_field {w : Payload} (h : 3 < w.toNat) (s : State) :
    orderClearStation [w] s = .refuse .badField s := by
  simp only [orderClearStation]
  split
  · omega
  · omega
  · omega
  · omega
  · rfl

theorem exec_clearCommand (scope : Fin 4) (seq : BitVec 8) (s : State) : exec (clearCommand scope seq) s
    = .next (whenLocked (takeChange 2 seq (orderClearStation [BitVec.ofNat 24 scope.val])) s) := by
  match scope with
  | 0 | 1 | 2 | 3 => rfl

/-- Settles O22: `orderClearStation_of_scope` behind the acknowledgement, and the two refusals, which all four rows share. -/
theorem clearStationReachesItsScope : Obligations.ClearStationReachesItsScope := by
  refine ⟨fun s scope seq sound fresh => ?_, fun s seq body fresh i hi => ?_⟩
  · obtain ⟨u, events, outcome, cleared⟩ := orderClearStation_of_scope sound scope
    have ran := exec_clearCommand scope seq s
    rw [takeChange_fresh fresh, outcome] at ran
    obtain ⟨lanes, slots, tables, store, raised, frame⟩ := cleared
    simp only [decide_eq_true_eq] at tables store raised
    subst raised
    have before : (s.answered 2 seq .done).SameReports
        (({ u with lastTaken := some { seq := seq, code := 2, status := .done } } : State).queueAck seq
          [(2 : BitVec 8).toNat, Status.done.code]) := by
      rw [frame]
      exact ⟨rfl, rfl, rfl⟩
    have offered := before.offerEvents
    rw [State.offerEvents_frame] at ran
    refine ⟨_, ran, lanes, slots, ?_, ?_, tables, store, offered _, ?_⟩
    · rw [frame]; rfl
    · rw [frame]; rfl
    · rw [frame]; rfl
  · have taken : exec i s = .next (whenLocked (takeChange 2 seq (orderClearStation body)) s) := by
      simp only [List.mem_cons, List.not_mem_nil, or_false] at hi
      rcases hi with rfl | rfl | rfl | rfl <;> rfl
    rw [taken]
    refine ⟨fun hlen => ?_, fun w hbody hw => ?_⟩
    · rw [takeChange_refused fresh (orderClearStation_of_length hlen s)]
    · rw [takeChange_refused fresh (hbody ▸ orderClearStation_of_field hw s)]

end Sys2Proof.Machine
end

section
/-! The Report Queue: what an offer does by the room and the discards it finds, and how the queue of one station comes from that
of another (R184 to R186). -/

namespace Sys2Proof.Machine
-- As in the tests, one thread: the whole text is compiled under one limit of memory.
set_option Elab.async false

/-! Offers by the room that they find (R185, R186) -/

theorem State.roomForEvent_iff (s : State) :
    s.roomForEvent = true ↔ (s.reports.countP fun r => r.code != 0) < 24 ∧ s.reports.length < 32 := by
  rw [State.roomForEvent, Bool.and_eq_true, decide_eq_true_eq, decide_eq_true_eq]
  rfl

theorem State.judgeEvent_of_room {s : State} (room : s.roomForEvent = true) (e : Event) : s.judgeEvent e = s.queueEvent e :=
  if_pos room

theorem State.judgeEvent_of_full {s : State} (full : ¬s.roomForEvent = true) (e : Event) :
    s.judgeEvent e = { s with lost := min 65535 (s.lost + 1) } := if_neg full

theorem State.offerEvent_of_no_discards {s : State} (h : s.lost = 0) (e : Event) : s.offerEvent e = s.judgeEvent e := if_pos h

/-- Without room nothing is told: the offered report joins the discards, whether there were any or not (R186). -/
theorem State.offerEvent_of_full {s : State} (full : ¬s.roomForEvent = true) (e : Event) :
    s.offerEvent e = { s with lost := min 65535 (s.lost + 1) } := by
  rw [State.offerEvent, if_neg full, ite_self, State.judgeEvent_of_full full]

/-- The station that has told of its discards (R186). -/
def State.lossTold (s : State) : State := { s.queueEvent (.lostEvents s.lost) with lost := 0 }

/-- After discards the offered report is judged once they are told of (R186). -/
theorem State.offerEvent_of_discards {s : State} (h : s.lost ≠ 0) (room : s.roomForEvent = true) (e : Event) :
    s.offerEvent e = s.lossTold.judgeEvent e := by
  rw [State.offerEvent, if_neg h, if_pos room, State.lossTold]

/-- Settles O60: the offer by its room and its discards (`State.offerEvent_of_full`, `State.offerEvent_of_discards`). -/
theorem lostEventsAreToldFirst : Obligations.LostEventsAreToldFirst := by
  intro s e room put told
  have inModel : ∀ u : State, room u ↔ u.roomForEvent = true := fun u => u.roomForEvent_iff.symm
  simp only [inModel]
  refine ⟨fun none found => ?_, fun full => ?_, fun some found again => ?_, fun some found full => ?_⟩
  · exact (State.offerEvent_of_no_discards none e).trans (State.judgeEvent_of_room found e)
  · have counted : min 65535 (s.lost + 1) = if s.lost < 65535 then s.lost + 1 else 65535 := by
      split <;> omega
    rw [State.offerEvent_of_full full, counted]
  · exact (State.offerEvent_of_discards some found e).trans (State.judgeEvent_of_room again e)
  · exact (State.offerEvent_of_discards some found e).trans (State.judgeEvent_of_full full e)

/-! One queue and another -/

theorem State.SameReports.refl (s : State) : s.SameReports s := ⟨rfl, rfl, rfl⟩

theorem State.SameReports.trans {s t u : State} (h : s.SameReports t) (h' : t.SameReports u) : s.SameReports u := by
  obtain ⟨reports, lost, seq⟩ := h
  obtain ⟨reports', lost', seq'⟩ := h'
  exact ⟨reports'.trans reports, lost'.trans lost, seq'.trans seq⟩

theorem State.SameReports.dropHeadReport {s t : State} (h : s.SameReports t) :
    s.dropHeadReport.SameReports t.dropHeadReport := by
  obtain ⟨reports, lost, seq⟩ := h
  exact ⟨congrArg List.tail reports, lost, seq⟩

/-- `t` holds the Report Queue of `s`, and the same word of it is to leave next (R191). -/
structure State.SameQueue (s t : State) : Prop where
  same : s.SameReports t
  wordPos : t.wordPos = s.wordPos

theorem State.sameQueue_of_fields {s t : State} (reports : t.reports = s.reports) (lost : t.lost = s.lost)
    (seq : t.eventSeq = s.eventSeq) (position : t.wordPos = s.wordPos) : s.SameQueue t :=
  ⟨⟨reports, lost, seq⟩, position⟩

theorem State.SameQueue.refl (s : State) : s.SameQueue s := ⟨.refl s, rfl⟩

theorem State.WorkFollows.sameQueue {s t : State} (h : s.WorkFollows t) : s.SameQueue t := by
  unfold State.WorkFollows at h
  rw [h]
  exact State.sameQueue_of_fields rfl rfl rfl rfl

theorem State.CaptureFollows.sameQueue {s t : State} (h : s.CaptureFollows t) : s.SameQueue t := h.work.sameQueue

theorem State.Cleared.sameQueue {s t : State} (h : s.Cleared t) : s.SameQueue t := by
  unfold State.Cleared at h
  rw [h]
  exact State.sameQueue_of_fields rfl rfl rfl rfl

/-- `t` holds the Report Queue that `s` has after some offers (R184 to R186). -/
def State.Offers (s t : State) : Prop := ∃ es, (s.offerEvents es).SameQueue t

theorem State.SameQueue.offers {s t : State} (h : s.SameQueue t) : s.Offers t := ⟨[], h⟩

theorem State.offers_of_fields {s t : State} (reports : t.reports = s.reports) (lost : t.lost = s.lost)
    (seq : t.eventSeq = s.eventSeq) (position : t.wordPos = s.wordPos) : s.Offers t :=
  (State.sameQueue_of_fields reports lost seq position).offers

theorem State.Offers.refl (s : State) : s.Offers s := (State.SameQueue.refl s).offers

theorem State.Offers.trans {s t u : State} (h : s.Offers t) (h' : t.Offers u) : s.Offers u := by
  obtain ⟨es, same, position⟩ := h
  obtain ⟨fs, same', position'⟩ := h'
  refine ⟨es ++ fs, ?_, ?_⟩
  · rw [State.offerEvents_append]
    exact (same.offerEvents fs).trans same'
  · rw [State.offerEvents_wordPos] at position position' ⊢
    exact position'.trans position

theorem State.offers_offerEvents (s : State) (es : List Event) : s.Offers (s.offerEvents es) := ⟨es, .refl _⟩

theorem State.Offers.offerEvents {s t : State} (h : s.Offers t) (es : List Event) : s.Offers (t.offerEvents es) :=
  h.trans (t.offers_offerEvents es)

theorem State.Offers.offerEvent {s t : State} (h : s.Offers t) (e : Event) : s.Offers (t.offerEvent e) := h.offerEvents [e]

/-- What follows the work of the lanes only offers reports (R187). -/
theorem LaneWork.Follows.finishLanes_offers {s : State} {w : LaneWork} (h : (LaneWork.start s).Follows w)
    (es : List Event) : s.Offers (Machine.finishLanes es w) := by
  simp only [Machine.finishLanes]
  refine State.Offers.offerEvents (h.work.sameQueue.offers.trans (State.SameQueue.offers ?_)) _
  rw [admitAll_frame, State.freeDoomed_frame]
  exact State.sameQueue_of_fields rfl rfl rfl rfl

end Sys2Proof.Machine
end

section
/-! The Report Queue stays within its bounds, and the word position within the head report, at every step (R182, R185, R191). -/

namespace Sys2Proof.Machine
-- As in the tests, one thread: the whole text is compiled under one limit of memory.
set_option Elab.async false

/-! The bounds of a queue and of its word position -/

/-- The bounds of what the Report Queue holds, without the word position (R185). -/
def State.queueBounded (s : State) : Prop := s.reports.length ≤ 32 ∧ s.eventCount ≤ 24 ∧ s.lost ≤ 65535

/-- The position of the last word of the head report, 0 when no report waits (R191). -/
def lastPosition : List Report → Nat
  | [] => 0
  | r :: _ => r.body.length + 1

theorem State.reportsBounded_iff (s : State) : s.reportsBounded ↔ s.queueBounded ∧ s.wordPos ≤ lastPosition s.reports := by
  unfold State.reportsBounded State.queueBounded lastPosition
  cases s.reports with
  | nil => rw [Nat.le_zero, and_assoc, and_assoc]
  | cons r rest => rw [and_assoc, and_assoc]

/-- Reports that join at the tail leave the word position within the head report. -/
theorem lastPosition_append (reports more : List Report) : lastPosition reports ≤ lastPosition (reports ++ more) := by
  cases reports with
  | nil => exact Nat.zero_le _
  | cons r rest => exact Nat.le_refl _

theorem State.queueBounded.of_same {s t : State} (h : s.queueBounded) (same : s.SameReports t) : t.queueBounded := by
  obtain ⟨reports, lost, -⟩ := same
  unfold State.queueBounded State.eventCount at h ⊢
  rwa [reports, lost]

theorem State.queueBounded.offerEvents {s : State} (h : s.queueBounded) (es : List Event) : (s.offerEvents es).queueBounded :=
  State.offerEvents_bounds h es

theorem State.queueBounded.dropHeadReport {s : State} (h : s.queueBounded) : s.dropHeadReport.queueBounded := by
  obtain ⟨all, events, lost⟩ := h
  have fewer := List.tail_sublist s.reports
  exact ⟨fewer.length_le.trans all, fewer.countP_le.trans events, lost⟩

theorem State.queueBounded.offerAndDepart {s : State} (h : s.queueBounded) (n : Nat) (departs : Bool) (es : List Event) :
    (offerAndDepart n departs es s).queueBounded := by
  unfold Machine.offerAndDepart
  split
  · split
    · exact h.dropHeadReport
    · exact (h.offerEvents _).dropHeadReport.offerEvents _
  · exact h.offerEvents es

theorem State.reportsBounded.of_offers {s t : State} (h : s.reportsBounded) (o : s.Offers t) : t.reportsBounded := by
  obtain ⟨bounds, within⟩ := s.reportsBounded_iff.mp h
  obtain ⟨es, same, position⟩ := o
  obtain ⟨added, grown, -⟩ := s.offerEvents_reports es
  refine t.reportsBounded_iff.mpr ⟨(bounds.offerEvents es).of_same same, ?_⟩
  rw [position, State.offerEvents_wordPos, same.1, grown]
  exact within.trans (lastPosition_append _ _)

/-- With no report waiting, nothing lost and the word position 0, every bound is kept. -/
theorem State.reportsBounded_of_empty {s : State} (reports : s.reports = []) (lost : s.lost = 0) (position : s.wordPos = 0) :
    s.reportsBounded := by
  simp [State.reportsBounded, State.eventCount, reports, lost, position]

/-- An acknowledgement is no event report, so it needs room for one report alone (R152, R185). -/
theorem State.reportsBounded.queueAck {s : State} (h : s.reportsBounded) (room : s.reports.length < 32) (seq : BitVec 8)
    (words : List Nat) : (s.queueAck seq words).reportsBounded := by
  obtain ⟨⟨-, events, lost⟩, within⟩ := s.reportsBounded_iff.mp h
  refine (State.reportsBounded_iff _).mpr ⟨⟨?_, ?_, lost⟩, within.trans (lastPosition_append _ _)⟩
  · rw [State.queueAck_reports, List.length_append]
    exact room
  · simpa [State.eventCount] using events

/-! Orders -/

/-- CLEAR STATION leaves its reports to be offered behind its acknowledgement (R172). -/
theorem sameQueue_orderClearStation (body : List Payload) (s : State) : s.SameQueue (orderClearStation body s).st := by
  have lanes := s.cleared_clearLanes
  unfold orderClearStation
  split
  · split
    · rw [clearScopeLanes_st]; exact lanes.sameQueue
    · rw [clearScopeTables_st]; exact lanes.tables.sameQueue
    · rw [clearScopeStore_st]; exact lanes.store.sameQueue
    · rw [clearScopeAll_st]; exact lanes.tables.store.sameQueue
    · exact .refl s
  · exact .refl s

/-- The execution of an order does not reach the Report Queue (R158). -/
theorem sameQueue_executeOrder {code : Nat} {body : List Payload} {f : State → OrderResult}
    (h : executeOrder code body = some f) (s : State) : s.SameQueue (f s).st := by
  have unread : ∀ {t : State}, t = s → s.SameQueue t := fun same => same ▸ .refl s
  unfold executeOrder at h
  split at h <;> cases h
  · exact unread (orderReadStation_st body s)
  · exact sameQueue_orderClearStation body s
  · rw [orderLoadRecord_frame]; exact State.sameQueue_of_fields rfl rfl rfl rfl
  · rw [orderEraseRecord_frame]; exact State.sameQueue_of_fields rfl rfl rfl rfl
  · exact unread (orderReadRecord_st body s)
  · rw [orderMapCue_frame]; exact State.sameQueue_of_fields rfl rfl rfl rfl
  · rw [orderUnmapCue_frame]; exact State.sameQueue_of_fields rfl rfl rfl rfl
  · exact unread (orderReadCueMap_st body s)
  · rw [orderTake_frame]; exact State.sameQueue_of_fields rfl rfl rfl rfl
  · rw [orderWaiting_frame]; exact State.sameQueue_of_fields rfl rfl rfl rfl
  · rw [orderWaiting_frame]; exact State.sameQueue_of_fields rfl rfl rfl rfl
  · exact unread (orderReadLane_st body s)
  · exact (State.captureFollows_clipOrder State.captureFollows_openClip body s).sameQueue
  · exact (s.captureFollows_orderAppendClip body).sameQueue
  · exact (State.captureFollows_clipOrder State.captureFollows_closeClip body s).sameQueue
  · exact (State.captureFollows_clipOrder State.captureFollows_deleteClip body s).sameQueue
  · exact unread (orderReadClip_st body s)
  · rw [orderCapture_frame]; exact State.sameQueue_of_fields rfl rfl rfl rfl
  · exact (s.captureFollows_orderCancelCapture body).sameQueue
  · rw [orderLoadLaw_frame]; exact State.sameQueue_of_fields rfl rfl rfl rfl
  · exact unread (orderReadLaw_st body s)
  · exact unread (orderReadTriggers_st body s)

/-- An order executed where there is room is acknowledged and then reported on (R152, R158). -/
theorem State.reportsBounded.answered {s : State} (h : s.reportsBounded) (room : s.reports.length < 32) {code : Nat}
    {body : List Payload} {f : State → OrderResult} (hf : executeOrder code body = some f) (taken : Option LastTaken)
    (seq : BitVec 8) (words : List Nat) (es : List Event) :
    ((({ (f s).st with lastTaken := taken } : State).queueAck seq words).offerEvents es).reportsBounded := by
  have queue := sameQueue_executeOrder hf s
  have executed : ({ (f s).st with lastTaken := taken } : State).reportsBounded := h.of_offers (t := (f s).st) queue.offers
  have found : (f s).st.reports.length < 32 := queue.same.1.symm ▸ room
  exact (executed.queueAck found seq words).of_offers (State.offers_offerEvents _ es)

theorem State.reportsBounded.takeOrder {s : State} (h : s.reportsBounded) (code seq : BitVec 8) (body : List Payload) :
    (takeOrder code seq body s).reportsBounded := by
  by_cases full : 32 ≤ s.reports.length
  · rwa [takeOrder_of_full full]
  have room : s.reports.length < 32 := Nat.lt_of_not_le full
  rcases takeOrder_cases code seq body s with ⟨-, taken⟩ | ⟨f, hf, ⟨-, -, taken⟩ | ⟨-, taken⟩⟩ <;> rw [taken]
  · rw [takeUnknown_told room]
    exact h.queueAck room seq _
  · rcases takeRead_cases code seq f s with ⟨-, read⟩ | ⟨-, read⟩ <;> rw [read]
    · exact h
    · exact h.answered room hf (f s).st.lastTaken seq _ _
  · rcases takeChange_cases code seq f s with ⟨-, changed⟩ | ⟨-, status, -, changed⟩ | ⟨-, -, changed⟩ <;> rw [changed]
    · exact h
    · exact h.queueAck room seq _
    · exact h.answered room hf _ seq _ _

theorem State.reportsBounded.takeComplete {s : State} (h : s.reportsBounded) (order : Option Assembly) :
    (takeComplete order s).reportsBounded := by
  cases order with
  | none => exact h
  | some a => exact h.takeOrder a.code a.seq a.body

/-! The event rows offer reports and do nothing else to the queue -/

theorem State.offers_atNextCount {f : State → State} (hf : ∀ u : State, u.Offers (f u)) (s : State) :
    s.Offers (s.atNextCount f) := by
  have counted : s.Offers { s with frameCount := s.frameCount + 1 } := State.offers_of_fields rfl rfl rfl rfl
  exact (counted.trans (hf _)).trans (State.offers_of_fields rfl rfl rfl rfl)

theorem offers_whenLocked {f : State → State} (hf : ∀ s : State, s.Offers (f s)) (s : State) : s.Offers (whenLocked f s) := by
  unfold whenLocked
  split
  · exact hf s
  · exact .refl s

theorem offers_meetDeadline (s : State) : s.Offers (meetDeadline s) := by
  unfold meetDeadline
  split
  · exact .refl s
  · split
    · have discarded : s.Offers { s with assembly := none } := State.offers_of_fields rfl rfl rfl rfl
      exact discarded.offerEvent _
    · exact .refl s

theorem offers_releaseLane (i : Fin 8) (s : State) : s.Offers (releaseLane i s) := by
  unfold releaseLane
  split
  · have released := LaneWork.follows_applyReleaseOrder i (LaneWork.start s)
    exact (released.trans (LaneWork.follows_endIfDue i _)).finishLanes_offers []
  · exact .refl s

theorem offers_abortLane (i : Fin 8) (s : State) : s.Offers (abortLane i s) := by
  unfold abortLane
  split
  · exact (LaneWork.follows_applyAbortOrder i (LaneWork.start s)).finishLanes_offers []
  · exact .refl s

theorem offers_reachEnd (i : Fin 8) (s : State) : s.Offers (reachEnd i s) := by
  unfold reachEnd
  dsimp only
  split
  · exact (LaneWork.follows_endRecord i (LaneWork.start s)).finishLanes_offers []
  · split
    · refine State.offers_atNextCount (fun arrived => ?_) s
      have advanced := LaneWork.follows_advanceLane i (LaneWork.start arrived)
      exact (advanced.trans (LaneWork.follows_endRecord i _)).finishLanes_offers []
    · exact .refl s

theorem offers_deliverDue (s : State) : s.Offers (deliverDue s) := by
  refine State.offers_atNextCount (fun arrived => ?_) s
  have dropped : arrived.Offers arrived.dropDue := State.offers_of_fields rfl rfl rfl rfl
  have started := (State.captureFollows_eachUnit
    (fun u s' => s'.captureFollows_startIf (arrivalPlan arrived s.lastGood).delivered[u] u) arrived.dropDue).sameQueue.offers
  exact (dropped.trans started).trans ((triggersRow_follows _ (LaneWork.start _)).finishLanes_offers _)

theorem offers_completeUnit (u : Fin 2) (s : State) : s.Offers (completeUnit u s) := by
  unfold completeUnit
  dsimp only
  split
  · exact (s.captureFollows_completeCapture u).sameQueue.offers.offerEvents _
  · split
    · exact (s.captureFollows_writeUnit s.lastGood u).sameQueue.offers.offerEvents _
    · exact .refl s

/-! The arrival -/

/-- The reports of an arrival in the order of R187, the Order Unit's last. -/
def State.offeredEvents (programme : SampleSet) (word : Option ControlWord) (s : State) : List Event :=
  (s.blocksWork programme word).2.1
    ++ (orderUnitWork (word.bind (handedOrderWord s.station)) (s.blocksWork programme word).1).events

/-- The blocks do their work without the Report Queue. -/
theorem State.blocksWork_sameReports (programme : SampleSet) (word : Option ControlWord) (s : State) :
    s.SameReports (s.blocksWork programme word).1 := by
  simp only [State.blocksWork, State.blocksReturned]
  rw [admitAll_frame]
  simp only [setPhases]
  rw [returnsWork_follows, State.emitted_frame]
  exact ⟨rfl, rfl, rfl⟩

theorem State.SameReports.offerAndDepart {s t : State} (h : s.SameReports t) (n : Nat) (departs : Bool) (es : List Event) :
    (offerAndDepart n departs es s).SameReports (offerAndDepart n departs es t) := by
  unfold Machine.offerAndDepart
  split
  · split
    · exact h.dropHeadReport
    · exact (h.offerEvents _).dropHeadReport.offerEvents _
  · exact h.offerEvents es

/-- The frame work leaves the Report Queue as the offers and the departure of the arrival leave it (R187, R191). -/
theorem frameWork_sameReports (programme : SampleSet) (word : Option ControlWord) (s : State) :
    (offerAndDepart s.choices ((arbitrate s word).endsReport s) (s.offeredEvents programme word) s).SameReports
      (frameWork programme word s).1 := by
  rw [frameWork_eq]
  refine (State.SameReports.offerAndDepart ?_ ..).trans ⟨rfl, rfl, rfl⟩
  rw [orderUnitWork_frame]
  exact (s.blocksWork_sameReports programme word).trans ⟨rfl, rfl, rfl⟩

/-- The arbiter leaves the word position within the report that is then the head (R191, R193). -/
theorem State.slotOutcome_within {s : State} (h : s.wordPos ≤ lastPosition s.reports) (now : FrameCount)
    (word : Option ControlWord) :
    (s.slotOutcome now word).2.2.2 ≤ lastPosition (s.slotOutcome now word).2.2.1 := by
  have free : (s.slotOutcome now none).2.2.2 ≤ lastPosition (s.slotOutcome now none).2.2.1 := by
    unfold State.slotOutcome
    cases s.cueOut with
    | cons e rest => exact h
    | nil =>
      cases reports : s.reports with
      | nil =>
        rw [reports] at h
        exact h
      | cons r rest =>
        rw [reports] at h
        dsimp only
        split
        · exact Nat.zero_le _
        · rename_i more
          exact Nat.lt_of_le_of_ne h more
  cases word with
  | none => exact free
  | some w =>
    cases travels : travelsOn s.station w with
    | true => simpa only [State.slotOutcome, travels, if_true] using h
    | false => simpa only [State.slotOutcome, travels, Bool.false_eq_true, if_false] using free

theorem State.reportsBounded.frameWork {s : State} (h : s.reportsBounded) (programme : SampleSet)
    (word : Option ControlWord) : (frameWork programme word s).1.reportsBounded := by
  obtain ⟨bounds, within⟩ := s.reportsBounded_iff.mp h
  obtain ⟨-, ⟨more, reports⟩, position, -⟩ := frameWork_leaves h programme word
  refine (State.reportsBounded_iff _).mpr ⟨?_, ?_⟩
  · exact (bounds.offerAndDepart ..).of_same (frameWork_sameReports programme word s)
  · rw [position, reports]
    exact (State.slotOutcome_within within _ word).trans (lastPosition_append _ _)

theorem State.reportsBounded.arriveGood {s : State} (h : s.reportsBounded) (samples : SampleSet) (word : ControlWord) :
    (arriveGood samples word s).reportsBounded := by
  rw [arriveGood_eq]
  exact (State.reportsBounded.frameWork (s := s.received samples 0) h samples (some word)).takeComplete _

theorem State.reportsBounded.atFirstWord {s : State} (h : s.reportsBounded) : ({ s with wordPos := 0 } : State).reportsBounded :=
  (State.reportsBounded_iff _).mpr ⟨(s.reportsBounded_iff.mp h).1, Nat.zero_le _⟩

/-- The link loss returns the word position to 0, so the report in emission starts again (R190). -/
theorem State.reportsBounded.loseLink {s : State} (h : s.reportsBounded) : (loseLink s).reportsBounded := by
  have stopped := h.of_offers s.workFollows_stopped.sameQueue.offers
  rw [loseLink_eq]
  generalize (eachUnit loseUnit (s.abandoned .linkLost)).1 = e at *
  have emptied : ({ e with triggers := [], cueOut := [], assembly := none } : State).reportsBounded := stopped
  exact (emptied.of_offers (State.offers_offerEvents _ _)).atFirstWord

theorem State.reportsBounded.arriveLocked {s : State} (h : s.reportsBounded) (line : LineFrame) :
    (arriveLocked line s).reportsBounded := by
  rcases arriveLocked_cases line s with ⟨-, arrived⟩ | ⟨-, -, arrived⟩ | ⟨-, -, arrived⟩ <;> rw [arrived]
  · exact h.arriveGood _ _
  · exact State.reportsBounded.frameWork (s := s.received s.lastGood (s.badRun + 1)) h _ none
  · exact State.reportsBounded.loseLink (s := s.leftLocked line) h

/-! The rows of the table -/

/-- Bits of a search pass the Report Queue by (R126). -/
theorem offers_searchBits (bits : List Bool) (s : State) : s.Offers (bits.foldl searchBit s) := by
  rw [searchBits_frame]
  exact State.offers_of_fields rfl rfl rfl rfl

/-- A frame in CONFIRM offers LINK LOCKED when it is the eighth, and nothing otherwise (R127, R128). -/
theorem offers_confirmFrame {line : LineFrame} {s t : State} (hx : exec (.confirmFrame line) s = .next t) : s.Offers t := by
  cases hl : s.lock with
  | locked =>
    rw [exec_confirmFrame_of_locked line hl] at hx
    cases hx
    exact .refl s
  | search =>
    rw [exec_confirmFrame_of_search line hl] at hx
    cases hx
    exact State.offers_of_fields rfl rfl rfl rfl
  | confirm =>
    by_cases good : (frameOfLine line).good
    · by_cases last : s.confirm = 7
      · rw [exec_confirmFrame_of_eighth line hl good last] at hx
        cases hx
        have locked : s.Offers (s.lockedBy line s.pending) := State.offers_of_fields rfl rfl rfl rfl
        exact locked.offerEvent .linkLocked
      · rw [exec_confirmFrame_of_good line hl good last] at hx
        cases hx
        exact State.offers_of_fields rfl rfl rfl rfl
    · rw [exec_confirmFrame_of_bad line hl good] at hx
      cases hx
      exact State.offers_of_fields rfl rfl rfl rfl

/-- A restart leaves no report, whatever the line then sends (R132). -/
theorem reportsBounded_of_restart {s t : State} {station : BitVec 5} (reports : t.reports = (s.restart station).reports)
    (lost : t.lost = (s.restart station).lost) (position : t.wordPos = (s.restart station).wordPos) : t.reportsBounded :=
  State.reportsBounded_of_empty reports lost position

theorem State.reportsBounded.exec_of_no_order {c : Instr} (hc : orderParts c = none) {s t : State} (h : s.reportsBounded)
    (hx : exec c s = .next t) : t.reportsBounded := by
  cases c with
  | powerOn straps => cases hx; exact reportsBounded_of_restart (s := s) (station := straps) rfl rfl rfl
  | resetAssert => cases hx; exact reportsBounded_of_restart (s := s) (station := s.station) rfl rfl rfl
  | resetRelease straps =>
    simp only [exec, execResetRelease] at hx
    split at hx
    · cases hx; exact reportsBounded_of_restart (s := s) (station := straps) rfl rfl rfl
    · cases hx; exact h
  | searchCandidate skipped candidate => cases hx; exact h.of_offers (offers_searchBits _ s)
  | confirmFrame line => exact h.of_offers (offers_confirmFrame hx)
  | frameArrival line =>
    simp only [exec, execFrameArrival] at hx
    split at hx
    · cases hx; exact h.arriveLocked line
    · cases hx; exact h
  | timeout => cases hx; exact h.of_offers (offers_whenLocked offers_meetDeadline s)
  | applyRelease i => cases hx; exact h.of_offers (offers_whenLocked (offers_releaseLane i) s)
  | applyAbort i => cases hx; exact h.of_offers (offers_whenLocked (offers_abortLane i) s)
  | recordEnd i => cases hx; exact h.of_offers (offers_whenLocked (offers_reachEnd i) s)
  | triggerFallsDue => cases hx; exact h.of_offers (offers_whenLocked offers_deliverDue s)
  | captureComplete u => cases hx; exact h.of_offers (offers_whenLocked (offers_completeUnit u) s)
  | cueOutSent =>
    rw [exec] at hx
    rcases execCueOutSent_cases s with ⟨e, -, sent⟩ | ⟨-, sent⟩ <;> rw [sent] at hx <;> cases hx
    · exact h.arriveGood _ _
    · exact h
  | reportWordSent =>
    rw [exec] at hx
    rcases execReportWordSent_cases s with ⟨w, -, sent⟩ | ⟨-, sent⟩ <;> rw [sent] at hx <;> cases hx
    · exact h.arriveGood _ _
    · exact h
  | _ => cases hc

theorem State.reportsBounded.exec {c : Instr} {s t : State} (h : s.reportsBounded) (hx : exec c s = .next t) :
    t.reportsBounded := by
  cases hc : orderParts c with
  | none => exact h.exec_of_no_order hc hx
  | some parts =>
    obtain ⟨code, seq, body⟩ := parts
    rw [exec_of_orderParts hc] at hx
    cases hx
    unfold whenLocked
    split
    · exact h.takeOrder code seq body
    · exact h

/-- Settles O8: an event row only offers reports (`State.Offers`), an order is acknowledged where there is room, and an arrival
offers behind the report that leaves. -/
theorem stepKeepsReportQueueBounds : Obligations.StepKeepsReportQueueBounds := by
  intro s t h hx
  unfold step at hx
  split at hx
  · cases hx
    exact h
  · rename_i c rest _
    exact State.reportsBounded.exec (s := { s with pending := rest }) h hx

end Sys2Proof.Machine
end

section
/-! The numbers that admitted event reports take, and the order in which the blocks of an arrival offer theirs (R184, R187). -/

namespace Sys2Proof.Machine
-- As in the tests, one thread: the whole text is compiled under one limit of memory.
set_option Elab.async false

/-! The numbers of admitted reports (R184) -/

/-- Event reports that carry the numbers of the event sequence from `start` on, one after another (R184). -/
structure NumberedFrom (start : BitVec 8) (added : List Report) : Prop where
  events : ∀ r ∈ added, r.code ≠ 0
  numbers : ∀ k, (h : k < added.length) → added[k].seq = start + BitVec.ofNat 8 k

theorem NumberedFrom.nil (start : BitVec 8) : NumberedFrom start [] := ⟨nofun, nofun⟩

theorem NumberedFrom.concat {start : BitVec 8} {added : List Report} (h : NumberedFrom start added) {r : Report}
    (event : r.code ≠ 0) (number : r.seq = start + BitVec.ofNat 8 added.length) : NumberedFrom start (added ++ [r]) := by
  refine ⟨fun x hx => ?_, fun k hk => ?_⟩
  · rcases List.mem_append.mp hx with old | new
    · exact h.events x old
    · rwa [List.mem_singleton.mp new]
  · rw [List.getElem_append]
    split
    · exact h.numbers k _
    · have last : k = added.length := by
        rw [List.length_append, List.length_singleton] at hk
        omega
      simp [number, last]

/-- Whatever a row of offers discards, what it admits is numbered without a gap (R184). -/
theorem State.offerEvents_numbered (s : State) (es : List Event) :
    ∃ added, (s.offerEvents es).reports = s.reports ++ added ∧ NumberedFrom s.eventSeq added
      ∧ (s.offerEvents es).eventSeq = s.eventSeq + BitVec.ofNat 8 added.length := by
  refine State.offerEvents_induction (P := fun t => ∃ added, t.reports = s.reports ++ added ∧ NumberedFrom s.eventSeq added
    ∧ t.eventSeq = s.eventSeq + BitVec.ofNat 8 added.length) ?_ (fun _ _ _ h => h) es s
    ⟨[], (List.append_nil _).symm, .nil _, (BitVec.add_zero _).symm⟩
  rintro t e - ⟨added, reports, numbered, next⟩
  refine ⟨added ++ [{ code := e.code, seq := t.eventSeq, body := toPayloads e.words }], ?_,
    numbered.concat e.code_ne_zero next, ?_⟩
  · rw [State.queueEvent_reports, reports, List.append_assoc]
  · rw [State.queueEvent_eventSeq, next, List.length_append, List.length_singleton, BitVec.ofNat_add, BitVec.add_assoc]
    rfl

/-! The reports of the lanes (R22, R47) -/

/-- `w'` comes from `w` by work that raises reports of lane `i` alone. -/
def LaneWork.RaisedBy (i : Fin 8) (w w' : LaneWork) : Prop :=
  ∃ raised, w'.reports = w.reports ++ raised ∧ ∀ e ∈ raised, e.laneOf = some i

section
variable {i : Fin 8} {w v x : LaneWork}

theorem LaneWork.raisedBy_of_silent (h : v.reports = w.reports) : RaisedBy i w v :=
  ⟨[], by rw [h, List.append_nil], nofun⟩

theorem LaneWork.raisedBy_of_appended {raised : List Event} (h : ∀ e ∈ raised, e.laneOf = some i)
    (hv : v.reports = w.reports ++ raised) : RaisedBy i w v := ⟨raised, hv, h⟩

theorem LaneWork.RaisedBy.refl (i : Fin 8) (w : LaneWork) : RaisedBy i w w := LaneWork.raisedBy_of_silent rfl

theorem LaneWork.RaisedBy.trans (h : RaisedBy i w v) (h' : RaisedBy i v x) : RaisedBy i w x := by
  obtain ⟨raised, reports, named⟩ := h
  obtain ⟨raised', reports', named'⟩ := h'
  refine ⟨raised ++ raised', by rw [reports', reports, List.append_assoc], fun e he => ?_⟩
  exact (List.mem_append.mp he).elim (named e) (named' e)

end

theorem laneOf_endReport (i : Fin 8) (l : Lane) (r : Record) (reason : EndReason) :
    ∀ e ∈ endReport i l r reason, e.laneOf = some i := by
  unfold endReport
  split <;> simp [Event.laneOf]

theorem laneOf_supersededReport (i : Fin 8) (l : Lane) : ∀ e ∈ supersededReport i l, e.laneOf = some i := by
  unfold supersededReport
  split <;> simp [Event.laneOf]

section
variable (i : Fin 8) (w : LaneWork)

theorem LaneWork.raisedBy_loadRecord (index : Fin 256) : RaisedBy i w (loadRecord i index w) := by
  rcases loadRecord_cases i index w with ⟨r, -, loaded⟩ | ⟨reason, -, ended⟩
  · rw [loaded]
    refine raisedBy_of_appended (raised := if r.reportStart then [.spliceStarted i index r.tag] else []) ?_ rfl
    split <;> simp [Event.laneOf]
  · rw [ended]
    exact raisedBy_of_appended (raised := [.chainEnded i index reason]) (by simp [Event.laneOf]) rfl

theorem LaneWork.raisedBy_endRecord : RaisedBy i w (endRecord i w) := by
  rcases endRecord_cases i w with ⟨-, same⟩ | ⟨r, -, outcome⟩
  · rw [same]
    exact .refl i w
  · have ended : ∀ st cues, RaisedBy i w
        { st := st, reports := w.reports ++ endReport i (w.st.lane i) r (w.st.lane i).mark.reason, endCues := cues } :=
      fun _ _ => raisedBy_of_appended (laneOf_endReport _ _ _ _) rfl
    rcases outcome with ⟨index, -, followed⟩ | ⟨-, -, ends⟩
    · rw [followed]
      exact (ended _ _).trans (raisedBy_loadRecord i _ index)
    · rw [ends]
      exact (ended _ _).trans (raisedBy_of_silent rfl)

theorem LaneWork.raisedBy_advanceLane : RaisedBy i w (advanceLane i w) := by
  rw [advanceLane_eq]
  exact raisedBy_of_silent rfl

theorem LaneWork.raisedBy_applyWaiting : RaisedBy i w (applyWaiting i w) := by
  unfold applyWaiting
  split
  · exact .refl i w
  · cases copy : (w.st.lane i).copy with
    | none => simp only [applyReleaseOrder, copy]; exact .refl i w
    | some r =>
      rw [applyReleaseOrder_of_copy copy]
      exact raisedBy_of_appended (laneOf_supersededReport _ _) rfl
  · cases copy : (w.st.lane i).copy with
    | none => simp only [applyAbortOrder, copy]; exact .refl i w
    | some r =>
      rw [applyAbortOrder_of_copy copy]
      exact raisedBy_of_appended (laneOf_endReport _ _ _ _) rfl

theorem LaneWork.raisedBy_endIfDue : RaisedBy i w (endIfDue i w) := by
  unfold endIfDue
  dsimp only
  split
  · exact raisedBy_endRecord i w
  · exact .refl i w

theorem LaneWork.raisedBy_queueTrigger (t : LaneTrigger) : RaisedBy i w (queueTrigger i t w) := by
  unfold queueTrigger
  dsimp only
  split
  · exact raisedBy_of_silent rfl
  · exact raisedBy_of_appended (raised := [.missedCue t.cue (some i)]) (by simp [Event.laneOf]) rfl

theorem LaneWork.raisedBy_cutTrigger (t : LaneTrigger) : RaisedBy i w (cutTrigger i t w) := by
  have reported : ∀ l, RaisedBy i w ((w.report (supersededReport i (w.st.lane i))).setLane i l) := fun _ =>
    raisedBy_of_appended (laneOf_supersededReport _ _) rfl
  unfold cutTrigger
  dsimp only
  split
  · exact .refl i w
  · split
    · split
      · exact (reported _).trans (raisedBy_endRecord i _)
      · exact reported _
    · exact reported _

theorem LaneWork.raisedBy_applyTrigger (t : LaneTrigger) : RaisedBy i w (applyTrigger i w t) := by
  unfold applyTrigger
  split
  · split
    · exact raisedBy_queueTrigger i w t
    · exact raisedBy_cutTrigger i w t
    · exact .refl i w
  · exact raisedBy_loadRecord i w t.record

theorem LaneWork.raisedBy_laneSteps (ts : List LaneTrigger) : RaisedBy i w (laneSteps ts i w) := by
  have triggered : ∀ v, RaisedBy i v (applyTriggers ts i v) := fun v =>
    List.foldlRecOn _ (applyTrigger i) (motive := RaisedBy i v) (.refl i v)
      fun _ raised t _ => raised.trans (raisedBy_applyTrigger i _ t)
  have early := (raisedBy_advanceLane i w).trans (raisedBy_applyWaiting i _)
  exact (early.trans (raisedBy_endIfDue i _)).trans (triggered _)

end

/-- Reports that each name a lane, in ascending lane number (R187). -/
structure ByLane (es : List Event) : Prop where
  named : ∀ e ∈ es, e.laneOf.isSome = true
  rising : es.Pairwise fun e f => ∀ i j, e.laneOf = some i → f.laneOf = some j → i ≤ j

/-- The reports of a lane may stand behind those of lanes before it. -/
theorem ByLane.append {es raised : List Event} {i : Fin 8} (h : ByLane es) (before : ∀ e ∈ es, ∀ j, e.laneOf = some j → j ≤ i)
    (own : ∀ e ∈ raised, e.laneOf = some i) : ByLane (es ++ raised) := by
  refine ⟨fun e he => ?_, List.pairwise_append.mpr ⟨h.rising, ?_, fun e he f hf j k hj hk => ?_⟩⟩
  · rcases List.mem_append.mp he with old | new
    · exact h.named e old
    · rw [own e new, Option.isSome_some]
  · refine List.pairwise_of_forall_mem_list fun e he f hf j k hj hk => ?_
    rw [own e he] at hj
    rw [own f hf] at hk
    cases hj
    cases hk
    exact Nat.le_refl _
  · rw [own f hf] at hk
    cases hk
    exact before e he j hj

/-- The lanes' work in ascending lane number, the units' between, raises the reports in ascending lane number (R22, R28). -/
theorem byLane_foldl_laneAt (p : ArrivalPlan) (s0 : State) {is : List (Fin 8)} (rising : is.Pairwise (· ≤ ·)) {w : ArrivalWork}
    (h : ByLane w.lanes.reports) (before : ∀ e ∈ w.lanes.reports, ∀ j, e.laneOf = some j → ∀ i ∈ is, j ≤ i) :
    ByLane (is.foldl (laneAt p s0) w).lanes.reports := by
  induction is generalizing w with
  | nil => exact h
  | cons i is ih =>
    obtain ⟨first, rest⟩ := List.pairwise_cons.mp rising
    have units := (unitsAt_follows p s0 (i.castLE (by decide)) w).2.1
    obtain ⟨raised, reports, own⟩ :=
      LaneWork.raisedBy_laneSteps i (unitsAt p s0 (i.castLE (by decide)) w).lanes p.triggers
    have grown : (laneAt p s0 w i).lanes.reports = w.lanes.reports ++ raised := reports.trans (congrArg (· ++ raised) units)
    refine ih rest ?_ fun e he j hj k hk => ?_
    · rw [grown]
      exact h.append (fun e he j hj => before e he j hj i List.mem_cons_self) own
    · rw [grown] at he
      rcases List.mem_append.mp he with old | new
      · exact before e old j hj k (List.mem_cons_of_mem i hk)
      · rw [own e new] at hj
        cases hj
        exact first k hk

theorem byLane_returnsWork (p : ArrivalPlan) (s : State) : ByLane (returnsWork p s).1.lanes.reports := by
  have rising : (List.finRange 8).Pairwise (· ≤ ·) := (List.pairwise_lt_finRange 8).imp Fin.le_of_lt
  have lanes := byLane_foldl_laneAt p s rising (w := { lanes := LaneWork.start s, unitEvents := Vector.replicate 2 [] })
    ⟨nofun, .nil⟩ nofun
  rw [← (unitsAt_follows p s 8 _).2.1] at lanes
  simp only [returnsWork]
  rw [(unitsAt_follows p s 9 _).2.1]
  exact lanes

/-! The reports of the capture units (R92 to R96) -/

section
variable (u : Fin 2) (s : State)

theorem unitOf_startUnit : ∀ e ∈ (startUnit u s).2, e.unitOf = some u := by simp [startUnit, Event.unitOf]

theorem unitOf_completeCapture : ∀ e ∈ (completeCapture u s).2, e.unitOf = some u := by
  simp [completeCapture, Event.unitOf]

theorem unitOf_endCaptureShort (reason : DoneReason) : ∀ e ∈ (endCaptureShort reason u s).2, e.unitOf = some u := by
  simp only [endCaptureShort]
  split <;> simp [Event.unitOf]

theorem unitOf_writeUnit (programme : SampleSet) : ∀ e ∈ (writeUnit programme u s).2, e.unitOf = some u := by
  simp only [writeUnit]
  split
  · exact unitOf_endCaptureShort u s .storeFull
  · split
    · exact unitOf_completeCapture u _
    · nofun

theorem unitOf_unitWork (programme : SampleSet) (delivered : Bool) :
    ∀ e ∈ (unitWork programme delivered u s).2, e.unitOf = some u := by
  cases delivered with
  | false =>
    simp only [unitWork, Bool.false_eq_true, if_false]
    split
    · exact unitOf_writeUnit u s programme
    · nofun
  | true =>
    simp only [unitWork, if_true]
    split
    · exact fun e he => (List.mem_append.mp he).elim (unitOf_startUnit u s e) (unitOf_writeUnit u _ programme e)
    · exact unitOf_startUnit u s

end

/-- Each unit has raised reports of its own alone. -/
def ArrivalWork.unitsNamed (w : ArrivalWork) : Prop := ∀ u : Fin 2, ∀ e ∈ w.unitEvents[u], e.unitOf = some u

section
variable {w : ArrivalWork} (h : w.unitsNamed) (p : ArrivalPlan) (s0 : State)
include h

theorem ArrivalWork.unitsNamed.unitAt (turn : Fin 10) (u : Fin 2) : (unitAt p s0 turn u w).unitsNamed := by
  unfold Machine.unitAt
  split
  · intro v e he
    simp only [Fin.getElem_fin, Vector.getElem_set] at he
    split at he
    · rename_i same
      rw [← Fin.ext same]
      exact unitOf_unitWork u _ _ _ e he
    · exact h v e he
  · exact h

theorem ArrivalWork.unitsNamed.unitsAt (turn : Fin 10) : (unitsAt p s0 turn w).unitsNamed :=
  (h.unitAt p s0 turn 0).unitAt p s0 turn 1

theorem ArrivalWork.unitsNamed.laneAt (i : Fin 8) : (laneAt p s0 w i).unitsNamed := h.unitsAt p s0 _

end

theorem unitsNamed_returnsWork (p : ArrivalPlan) (s : State) : (returnsWork p s).1.unitsNamed := by
  have silent : ({ lanes := LaneWork.start s, unitEvents := Vector.replicate 2 [] } : ArrivalWork).unitsNamed := by
    intro u e he
    simp at he
  have lanes := List.foldlRecOn (List.finRange 8) (laneAt p s) (motive := ArrivalWork.unitsNamed) silent
    fun _ named i _ => named.laneAt p s i
  have returned : ({ lanesWork p s with
      lanes := { (lanesWork p s).lanes with st := (lanesWork p s).lanes.st.freeDoomed.1 } } : ArrivalWork).unitsNamed :=
    lanes.unitsAt p s 8
  exact returned.unitsAt p s 9

/-! The reports of the Trigger Unit and the Order Unit (R113, R119, R144 to R148) -/

theorem offerCues_missed (awaited : Nat → Fin 4096 → Bool) (cues : List (Fin 4096 × Fin 4096)) (j : Nat) (s : State) :
    ∃ missed : List (Fin 4096), (offerCues awaited j cues s).2 = missed.map fun c => .missedCue c none := by
  induction cues generalizing j s with
  | nil => exact ⟨[], rfl⟩
  | cons c cues ih =>
    obtain ⟨cue, offset⟩ := c
    obtain ⟨missed, later⟩ := ih (j + 1) (offerCue s (awaited j) cue offset).1
    simp only [offerCues, later]
    unfold offerCue
    split
    · rcases s.admitCue_cases cue offset with ⟨-, full⟩ | ⟨-, entered⟩
      · exact ⟨cue :: missed, by rw [full]; rfl⟩
      · exact ⟨missed, by rw [entered]; rfl⟩
    · exact ⟨missed, rfl⟩

theorem placeCues_dropped (cues : List EndCue) (s : State) :
    ∃ dropped : List (Fin 4096), (placeCues cues s).2 = dropped.map .cueOutDropped := by
  induction cues generalizing s with
  | nil => exact ⟨[], rfl⟩
  | cons c cues ih =>
    obtain ⟨dropped, later⟩ := ih (if c.forward then s.placeCueOut c else (s, [])).1
    simp only [placeCues, later]
    split
    · rcases s.placeCueOut_cases c with ⟨-, full⟩ | ⟨-, placed⟩
      · exact ⟨c.cue :: dropped, by rw [full]; rfl⟩
      · exact ⟨dropped, by rw [placed]; rfl⟩
    · exact ⟨dropped, rfl⟩

/-- MISSED CUE reports come before CUE OUT DROPPED reports (R187). -/
theorem admitAll_events (awaited : Nat → Fin 4096 → Bool) (endCues : List EndCue) (cueWord : List (Fin 4096 × Fin 4096))
    (s : State) : ∃ missed dropped : List (Fin 4096), (admitAll awaited endCues cueWord s).2
      = missed.map (fun c => .missedCue c none) ++ dropped.map .cueOutDropped := by
  simp only [admitAll]
  obtain ⟨missed, first⟩ := offerCues_missed awaited (endCues.map (fun c => (c.cue, c.offset)) ++ cueWord) 0 s
  obtain ⟨dropped, second⟩ := placeCues_dropped endCues
    (offerCues awaited 0 (endCues.map (fun c => (c.cue, c.offset)) ++ cueWord) s).1
  exact ⟨missed, dropped, by rw [first, second]⟩

/-- Reports of discarded orders alone. -/
def OnlyDiscards (es : List Event) : Prop := ∀ e ∈ es, ∃ seq reason, e = .orderDiscarded seq reason

theorem OnlyDiscards.nil : OnlyDiscards [] := nofun

section
variable (address : BitVec 5) (p : Payload) (s : State)

theorem onlyDiscards_checkDeadline : OnlyDiscards (checkDeadline s).2 := by
  unfold checkDeadline
  split
  · exact .nil
  · split <;> simp [OnlyDiscards]

theorem onlyDiscards_orderHead : OnlyDiscards (orderHead address p s).events := by
  unfold orderHead
  dsimp only
  repeat' split
  all_goals simp [OnlyDiscards]

theorem onlyDiscards_orderBody : OnlyDiscards (orderBody address p s).events := by
  unfold orderBody
  repeat' split
  all_goals simp [OnlyDiscards]

theorem onlyDiscards_orderEnd : OnlyDiscards (orderEnd address p s).events := by
  unfold orderEnd
  dsimp only
  repeat' split
  all_goals simp [OnlyDiscards]

end

theorem onlyDiscards_handleOrderWord (w : Option ControlWord) (s : State) : OnlyDiscards (handleOrderWord w s).events := by
  unfold handleOrderWord
  split
  · exact .nil
  · split
    · exact onlyDiscards_orderHead _ _ s
    · exact onlyDiscards_orderBody _ _ s
    · exact onlyDiscards_orderEnd _ _ s
    · exact .nil

/-- The deadline comes first, and then the word of the arrival (R148). -/
theorem onlyDiscards_orderUnitWork (w : Option ControlWord) (s : State) : OnlyDiscards (orderUnitWork w s).events := fun e he =>
  (List.mem_append.mp he).elim (onlyDiscards_checkDeadline s e) (onlyDiscards_handleOrderWord w _ e)

/-! The reports of an arrival, block by block (R187) -/

/-- What each block reports at an arrival, in the order of R187. -/
structure ArrivalReports where
  lanes : List Event
  freed : List Nat
  unit0 : List Event
  unit1 : List Event
  missed : List (Fin 4096)
  dropped : List (Fin 4096)
  discarded : List Event

/-- The reports of an arrival in the order in which they are offered. -/
def ArrivalReports.events (b : ArrivalReports) : List Event :=
  b.lanes ++ b.freed.map Event.clipFreed ++ b.unit0 ++ b.unit1 ++ b.missed.map (fun c => .missedCue c none)
    ++ b.dropped.map Event.cueOutDropped ++ b.discarded

/-- Each block reports in its own order and of its own alone. -/
structure ArrivalReports.InOrder (b : ArrivalReports) : Prop where
  lanes : ByLane b.lanes
  freed : b.freed.Pairwise (· < ·)
  unit0 : ∀ e ∈ b.unit0, e.unitOf = some 0
  unit1 : ∀ e ∈ b.unit1, e.unitOf = some 1
  discarded : OnlyDiscards b.discarded

/-- The clips that an arrival frees are listed in ascending number (R76). -/
theorem returnsWork_freed (p : ArrivalPlan) {s : State} (h : s.storeCanonical) :
    ∃ freed : List Nat, (returnsWork p s).2 = freed.map Event.clipFreed ∧ freed.Pairwise (· < ·) := by
  obtain ⟨-, sorted, -⟩ := storeCanonical_lanesWork p h
  exact ⟨_, rfl, pairwise_lt_filter_fst sorted _⟩

theorem State.offeredEvents_inOrder {s : State} (h : s.storeCanonical) (programme : SampleSet) (word : Option ControlWord) :
    ∃ b : ArrivalReports, s.offeredEvents programme word = b.events ∧ b.InOrder := by
  have started : (s.emitted word).storeCanonical := by
    refine State.storeCanonical_congr ?_ ?_ h <;> rw [State.emitted_frame] <;> rfl
  obtain ⟨freed, events, rising⟩ := returnsWork_freed (arrivalPlan s programme) started
  have lanes := byLane_returnsWork (arrivalPlan s programme) (s.emitted word)
  have units := unitsNamed_returnsWork (arrivalPlan s programme) (s.emitted word)
  obtain ⟨missed, dropped, triggers⟩ := admitAll_events
    (awaitedAt (arrivalPlan s programme) (s.emitted word) (setPhases (s.blocksReturned programme word).1.lanes.st))
    (s.blocksReturned programme word).1.lanes.endCues (s.actedCues word)
    (setPhases (s.blocksReturned programme word).1.lanes.st)
  refine ⟨⟨_, freed, _, _, missed, dropped, _⟩, ?_, lanes, rising, units 0, units 1, onlyDiscards_orderUnitWork
    (word.bind (handedOrderWord s.station)) (s.blocksWork programme word).1⟩
  simp only [State.offeredEvents, State.blocksWork, ArrivalReports.events, triggers]
  rw [State.blocksReturned, events, List.append_assoc _ (missed.map _)]
  rfl

/-- An arrival's reports are offered behind one another; a report that leaves does so after some of the offers (R187). -/
theorem offerAndDepart_true (n : Nat) (es : List Event) (s : State) : offerAndDepart n true es s
    = (s.offerEvents (es.take (Config.offersBeforeDeparture n))).dropHeadReport.offerEvents
        (es.drop (Config.offersBeforeDeparture n)) := by
  cases es with
  | nil => rw [offerAndDepart_of_leaves, List.take_nil, List.drop_nil]; rfl
  | cons e es => rfl

/-- The station that has offered the reports `es` of the arrival of count `now`; when a report leaves at it, it does so after `n`
of the offers (R187, R191, R193). -/
def State.queueAfter (s : State) (now : FrameCount) (word : Option ControlWord) (es : List Event) (n : Nat) : State :=
  if (s.slotOutcome now word).2.2.1 = s.reports then s.offerEvents es
  else (s.offerEvents (es.take n)).dropHeadReport.offerEvents (es.drop n)

/-- The same queue after the same offers, when the arbiter chooses alike. -/
theorem State.SameReports.queueAfter {s t : State} (h : s.SameReports t) {now now' : FrameCount} {word : Option ControlWord}
    (choice : (t.slotOutcome now' word).2.2.1 = (s.slotOutcome now word).2.2.1) (es : List Event) (n : Nat) :
    (s.queueAfter now word es n).SameReports (t.queueAfter now' word es n) := by
  unfold State.queueAfter
  rw [choice, h.1]
  split
  · exact h.offerEvents es
  · exact (h.offerEvents _).dropHeadReport.offerEvents _

/-- The Report Queue that the frame work leaves, by whether the arbiter lets the head report go (R187, R191). -/
theorem frameWork_queue {s : State} (hb : s.reportsBounded) (programme : SampleSet) (word : Option ControlWord) :
    ∃ n, (s.queueAfter s.frameCount word (s.offeredEvents programme word) n).SameReports (frameWork programme word s).1 := by
  have worked := frameWork_sameReports programme word s
  refine ⟨Config.offersBeforeDeparture s.choices, ?_⟩
  obtain ⟨-, ⟨stays, waiting, -⟩ | ⟨departs, some, gone, -⟩⟩ := arbitrate_agrees hb word
  · rw [stays, offerAndDepart_of_stays] at worked
    rwa [State.queueAfter, if_pos waiting]
  · rw [departs, offerAndDepart_true] at worked
    rwa [State.queueAfter, if_neg fun same => some (eq_nil_of_tail_eq_self (gone.symm.trans same))]

/-- `t` holds the Report Queue of `s` with `more` behind: nothing, or one acknowledgement and event reports after it (R158). -/
structure State.AnsweredWith (s t : State) (more : List Report) : Prop where
  reports : t.reports = s.reports ++ more
  silent : more = [] → t.lost = s.lost ∧ t.eventSeq = s.eventSeq
  answer : more = [] ∨ ∃ ack events, more = ack :: events ∧ ack.code = 0 ∧ ∀ r ∈ events, r.code ≠ 0

theorem State.answeredWith_nil (s : State) : s.AnsweredWith s [] := ⟨(List.append_nil _).symm, fun _ => ⟨rfl, rfl⟩, .inl rfl⟩

/-- An order taken after the frame work is answered, or dropped by a full queue (R152, R153, R158). -/
theorem takeComplete_answeredWith (order : Option Assembly) (s : State) : ∃ more, s.AnsweredWith (takeComplete order s) more := by
  cases order with
  | none => exact ⟨[], s.answeredWith_nil⟩
  | some a =>
    rw [takeComplete]
    by_cases full : 32 ≤ s.reports.length
    · rw [takeOrder_of_full full]
      exact ⟨[], s.answeredWith_nil⟩
    · obtain ⟨status, data, events, answered⟩ := takeOrder_answeredOnce (Nat.lt_of_not_le full) a.code a.seq a.body
      exact ⟨_, answered.reports, nofun, .inr ⟨_, events, rfl, rfl, answered.events⟩⟩

/-- Every arrival that keeps the lock is the frame work and the taking of what it completes (R130, R153). -/
theorem exec_frameArrival_takes {s : State} (hl : s.lock = .locked) {line : LineFrame} {samples : SampleSet}
    {word : Option ControlWord} {run : Nat} (ht : s.takes line samples word run) :
    exec (.frameArrival line) s = .next (takeComplete (frameWork samples word (s.received samples run)).2
      (frameWork samples word (s.received samples run)).1) := by
  rw [exec_frameArrival line hl]
  refine congrArg Host.Outcome.next ?_
  rcases ht with ⟨good, rfl, rfl, rfl⟩ | ⟨bad, few, rfl, rfl, rfl⟩
  · rw [arriveLocked_good s good, arriveGood_eq]
  · rcases arriveLocked_cases line s with ⟨good, -⟩ | ⟨-, -, arrived⟩ | ⟨-, many, -⟩
    · exact absurd good bad
    · rw [arrived, frameWork_without_word]
      rfl
    · exact absurd few (Nat.not_lt.mpr many)

/-- Settles O59: the numbers by `State.offerEvents_numbered`; an arrival by the reports of its blocks
(`State.offeredEvents_inOrder`), the queue that its frame work leaves (`frameWork_queue`) and the answer to an order
(`takeComplete_answeredWith`). -/
theorem eventSequenceHasNoGap : Obligations.EventSequenceHasNoGap := by
  refine ⟨fun s es => ?_, fun s seq words => rfl, fun s line word hs hl ha => ?_⟩
  · obtain ⟨added, reports, numbered, next⟩ := s.offerEvents_numbered es
    exact ⟨added, reports, numbered.events, numbered.numbers, next, s.offerEvents_frame es⟩
  · obtain ⟨samples, run, taken⟩ := State.exists_takes ha
    obtain ⟨b, offered, inOrder⟩ := State.offeredEvents_inOrder (s := s.received samples run) hs.canonical.store samples word
    obtain ⟨n, worked⟩ := frameWork_queue (s := s.received samples run) hs.reports samples word
    obtain ⟨more, answered⟩ := takeComplete_answeredWith (frameWork samples word (s.received samples run)).2
      (frameWork samples word (s.received samples run)).1
    have received : s.SameReports (s.received samples run) := ⟨rfl, rfl, rfl⟩
    obtain ⟨reports, lost, seq⟩ := (received.queueAfter (now := s.frameCount + 1) rfl _ n).trans worked
    rw [offered] at reports lost seq
    exact ⟨_, b.lanes, b.unit0, b.unit1, b.discarded, b.freed, b.missed, b.dropped, n, more,
      exec_frameArrival_takes hl taken, inOrder.lanes.named, inOrder.lanes.rising, inOrder.freed, inOrder.unit0, inOrder.unit1,
      inOrder.discarded, answered.reports.trans (congrArg (· ++ more) reports),
      fun none => ⟨(answered.silent none).1.trans lost, (answered.silent none).2.trans seq⟩, answered.answer⟩

end Sys2Proof.Machine
end
